-- ==== Sys2Proof/Word.lean ====
section
/-! DEFINITION. The words of the 2410: bytes, text fields and the sizes the manual fixes. -/
namespace Sys2Proof

/-- One byte of a frame, of a mirror slot or of the retained store. -/
abbrev Byte := BitVec 8

/-- The characters of a text field (R3). The empty list is the absent field. -/
abbrev Text := List Byte

/-- One 24-bit word of the weigh sample input (chapter 2.1). -/
abbrev SampleWord := BitVec 24

/-- Index of a bin: `0` is B01, `27` is B28. -/
abbrev BinIx := Fin 28

/-- Index of a pit: `0` is P1, `1` is P2. -/
abbrev PitIx := Fin 2

/-- Index of a conveyor segment: `0` is S01, `19` is S20. -/
abbrev SegIx := Fin 20

end Sys2Proof
end

