-- ==== Sys2Proof/Syntax.lean ====
section
/-! DEFINITION. The commands of the 2410: one constructor per row of the opcode table. -/
namespace Sys2Proof

/-- The five ports, and so the five stations wired to them (00_scope.md, "Place in the terminal"). -/
inductive Port where
  | office | scale | dryer | yard | dock
deriving DecidableEq, Repr

/-- One character as the receive pair delivers it: its eight data bits, and whether its even parity was
right (R1, R2). -/
structure RxChar where
  byte : Byte
  parityOk : Bool
deriving DecidableEq, Repr

/-- The commands, in the order of spec/opcode_table.json. A request carries the port it arrived on, its
sequence byte and the bytes of its body. `left` is what an interrupted or abandoned store write left at
the start of its range (log entry 10). -/
inductive Instr where
  | powerOn
  | resetNAsserted (left : List Byte)
  | resetNReleased
  | configurationLoaded
  | mirrorLoaded
  | frameError (p : Port) (chars : List RxChar)
  | interCharacterTimeout (p : Port) (chars : List RxChar)
  | collided (p : Port) (kind : Byte)
  | undefinedKindRequest (p : Port) (seq kind : Byte)
  | portReset (p : Port)
  | transmissionStart (p : Port)
  | answerSent (p : Port)
  | noticeSent (p : Port)
  | silenceTimeout (p : Port)
  | watchExpired (p : Port)
  | status (p : Port) (seq : Byte) (body : List Byte)
  | readRecord (p : Port) (seq : Byte) (body : List Byte)
  | watch (p : Port) (seq : Byte) (body : List Byte)
  | cancelWatch (p : Port) (seq : Byte) (body : List Byte)
  | readEvents (p : Port) (seq : Byte) (body : List Byte)
  | openTicket (p : Port) (seq : Byte) (body : List Byte)
  | captureGross (p : Port) (seq : Byte) (body : List Byte)
  | enterSample (p : Port) (seq : Byte) (body : List Byte)
  | assignPit (p : Port) (seq : Byte) (body : List Byte)
  | reportDumped (p : Port) (seq : Byte) (body : List Byte)
  | captureTare (p : Port) (seq : Byte) (body : List Byte)
  | voidTicket (p : Port) (seq : Byte) (body : List Byte)
  | zeroBridge (p : Port) (seq : Byte) (body : List Byte)
  | placeHold (p : Port) (seq : Byte) (body : List Byte)
  | releaseHold (p : Port) (seq : Byte) (body : List Byte)
  | setCeiling (p : Port) (seq : Byte) (body : List Byte)
  | lockCeiling (p : Port) (seq : Byte) (body : List Byte)
  | unlockCeiling (p : Port) (seq : Byte) (body : List Byte)
  | freezeCeilings (p : Port) (seq : Byte) (body : List Byte)
  | adjustMass (p : Port) (seq : Byte) (body : List Byte)
  | acceptBalance (p : Port) (seq : Byte) (body : List Byte)
  | claimRoute (p : Port) (seq : Byte) (body : List Byte)
  | startTransfer (p : Port) (seq : Byte) (body : List Byte)
  | reportMass (p : Port) (seq : Byte) (body : List Byte)
  | drainExpiry (claim : Nat)
  | releaseClaim (p : Port) (seq : Byte) (body : List Byte)
  | reportSegmentMotion (p : Port) (seq : Byte) (body : List Byte)
  | clearSegmentFault (p : Port) (seq : Byte) (body : List Byte)
  | closeFeed (p : Port) (seq : Byte) (body : List Byte)
  | reportBatchOut (p : Port) (seq : Byte) (body : List Byte)
  | startSurvey (p : Port) (seq : Byte) (body : List Byte)
  | abortSurvey (p : Port) (seq : Byte) (body : List Byte)
  | berthBarge (p : Port) (seq : Byte) (body : List Byte)
  | amendPlan (p : Port) (seq : Byte) (body : List Byte)
  | reportStage (p : Port) (seq : Byte) (body : List Byte)
  | closeBarge (p : Port) (seq : Byte) (body : List Byte)
  | stageStale
  | setClock (p : Port) (seq : Byte) (body : List Byte)
  | restart (p : Port) (seq : Byte) (body : List Byte)
  | writeConfigurationArea (p : Port) (seq : Byte) (body : List Byte)
  | readConfigurationArea (p : Port) (seq : Byte) (body : List Byte)
  | configWriteTimeout (left : List Byte)
  | mirrorWriteStart
  | storeStatusPoll (status : Byte)
  | mirrorWriteTimeout (left : List Byte)
  | wsiIdle
  | sampleArrival (word : SampleWord)
  | stalenessTimerExpiry
  | captureDeadline
  | pollCycleExpiry
  | busTransactionStart
  | convertComplete (sent : Bool)
  | pollConversionWait
  | readPointsEnd (reply : Option (List Byte))
  | selfCheckEnd (acknowledged : Bool)
  | surveyConversionWait
  | clockHoldTimeout
  | powerLoss (left : List Byte)
  | lineReturnsToIdle (p : Port)
deriving DecidableEq, Repr

end Sys2Proof
end

