-- ==== Sys2Proof/Machine/State.lean ====
section
/-! DEFINITION. The state of the 2410 as plain data, block by block, and the state right after reset. -/
namespace Sys2Proof.Machine

/-- Why a step stops with a fault. No command of the 2410 stops, so there is no reason to name. -/
inductive Fault where
deriving DecidableEq, Repr

/-- Why a step is refused. -/
inductive Refusal where
  /-- Raised by an arm of `exec` whose command has no meaning yet. A stop, so it is safe. No arm of this
  model answers it. -/
  | notModelled (mnemonic : String)
deriving DecidableEq, Repr

/-! ### Names the blocks share -/

/-- A location (section 5.1). -/
inductive Loc where
  | bin (i : BinIx)
  | pit (i : PitIx)
  | dryer
  | berth
  | reject
deriving DecidableEq, Repr

/-- A revisioned record, named by its kind and index (section 1.7). -/
inductive RecRef where
  | bin (i : BinIx)
  | pit (i : PitIx)
  | ticket (n : Nat)
  | lot (n : Nat)
  | claim (n : Nat)
  | batchList
  | berth
  | segment (i : SegIx)
deriving DecidableEq, Repr

/-- The result codes of section 1.4. -/
inductive Code where
  | ok | changed | expired | cancelled | gone
  | role | busy | stale | conflict | full | notFound | badState | range | motion | bridge | held | wet
  | commodity | grade | hot | noRoom | tooLate | backward | foreign | locked | frozen | faulted
  | notReady | belowContent
deriving DecidableEq, Repr

/-- The notice kinds of section 1.6. -/
inductive NoticeKind where
  | trip | transferClosed | segmentFault | rotationOrder | condition | hold | dryerDiscrepancy
  | targetsRescaled | stageStale | stationSilent | surveyDone | bridgeFault
deriving DecidableEq, Repr

/-- One value for each port. -/
structure PerPort (α : Type) where
  office : α
  scale : α
  dryer : α
  yard : α
  dock : α
deriving DecidableEq, Repr

/-! ### Station Link Ports -/

/-- The receiver of a port (R2). `inFrame` holds the bytes received after the opener. `inBreak` is the
receiver after a port reset until the line returns to idle (R17). -/
inductive Receiver where
  | hunting
  | inFrame (got : List Byte)
  | inBreak
deriving DecidableEq, Repr

/-- The port flags (R6). -/
structure PortFlags where
  collided : Bool
  frameError : Bool
  noticeOverrun : Bool
  silentTripped : Bool
deriving DecidableEq, Repr

/-- A notice waiting in a port's queue (R8, R9). -/
structure Notice where
  kind : NoticeKind
  body : List Byte
deriving DecidableEq, Repr

/-- An answer waiting to be sent: the request's sequence byte and kind, the code and the result body. -/
structure Answer where
  seq : Byte
  kind : Byte
  code : Code
  body : List Byte
deriving DecidableEq, Repr

/-- A parked watch (R13). `expiry` is in monotonic milliseconds, absent when the watch has no timeout. -/
structure Watch where
  subject : RecRef
  expected : Nat
  expiry : Option Nat
deriving DecidableEq, Repr

/-- The request slot (section 1.3). HOLDING is either `acting`, a request without its answer yet, or
`answering`, the answer to send and, after a CANCEL WATCH, the answer to send next (R15). -/
inductive Slot where
  | empty
  | acting (seq kind : Byte)
  | answering (first : Answer) (second : Option Answer)
  | parked (seq : Byte) (watch : Watch)
deriving DecidableEq, Repr

/-- A transmission in progress, with the bytes of its frame (R7). -/
inductive Tx where
  | answer (frame : List Byte)
  | notice (frame : List Byte)
deriving DecidableEq, Repr

/-- One Station Link Port. `timer` is the monotonic millisecond at which the silence timer was last
restarted, absent when it is stopped (R16). -/
structure SlpPort where
  receiver : Receiver
  slot : Slot
  flags : PortFlags
  notices : List Notice
  silent : Bool
  timer : Option Nat
  tx : Option Tx
deriving DecidableEq, Repr

/-! ### Weighbridge Unit -/

/-- The receiver of the weigh sample input (R19). -/
inductive WsiReceiver where
  | aligning
  | shifting (bits : Nat)
deriving DecidableEq, Repr

/-- The bridge state (section 2.3). -/
inductive Bridge where
  | stale | overload | underload | motion | stable
deriving DecidableEq, Repr

/-- Which weight a capture takes. -/
inductive CaptureKind where
  | gross | tare
deriving DecidableEq, Repr

/-- The pending capture (section 2.5). `deadline` is in monotonic milliseconds. -/
structure Capture where
  port : Port
  kind : CaptureKind
  ticket : Nat
  deadline : Nat
deriving DecidableEq, Repr

/-- The Weighbridge Unit. `timer` is the millisecond of the last sample arrival while the staleness timer
runs. `latest` is the counts of the latest sample. -/
structure Wbu where
  wsi : WsiReceiver
  window : List Int
  latest : Option Int
  bridge : Bridge
  timer : Option Nat
  trackOffset : Int
  zeroDrift : Bool
  capture : Option Capture
deriving DecidableEq, Repr

/-! ### Ticket and Lot Register -/

/-- The ticket states of section 3.1. A CLOSED ticket has left the table. -/
inductive TicketState where
  | opened | weighedIn | sampled | assigned | dumped
deriving DecidableEq, Repr

/-- A recorded gross and the terminal time of its capture (R36). -/
structure Gross where
  mass : Nat
  time : Nat
deriving DecidableEq, Repr

/-- A recorded sample (R36, R42). -/
structure Sample where
  moisture : Nat
  estimated : Bool
  grade : Nat
deriving DecidableEq, Repr

/-- One open ticket (R36). `pos` is the mirror slot it occupies. -/
structure Ticket where
  pos : Nat
  number : Nat
  state : TicketState
  commodity : Nat
  plate : Text
  gross : Option Gross
  sample : Option Sample
  pit : Option PitIx
  rev : Nat
deriving DecidableEq, Repr

/-- One lot of the register (R47, R49). `pos` is the entry it occupies. -/
structure Lot where
  pos : Nat
  number : Nat
  damaged : Bool
  commodity : Nat
  grade : Nat
  wet : Bool
  estimated : Bool
  net : Nat
  moisture : Nat
  standard : Nat
  waterShrink : Nat
  handlingShrink : Nat
  intakeTime : Nat
  refs : Nat
  rev : Nat
deriving DecidableEq, Repr

/-- The Ticket and Lot Register. -/
structure Tlr where
  tickets : List Ticket
  lots : List Lot
  counter : Nat
deriving DecidableEq, Repr

/-! ### Inventory Unit -/

/-- Where a layer came from (R78). -/
inductive Origin where
  | intake | dryer | rotation | survey
deriving DecidableEq, Repr

/-- One layer (R78). -/
structure Layer where
  number : Nat
  mass : Nat
  moisture : Nat
  grade : Nat
  origin : Origin
  fillTime : Nat
  lots : List Nat
  untraced : Bool
deriving DecidableEq, Repr

/-- The kind of a bin (R73). -/
inductive BinKind where
  | storage | wet
deriving DecidableEq, Repr

/-- The level of a quality hold (section 5.6). -/
inductive HoldLevel where
  | standard | strict
deriving DecidableEq, Repr

/-- A quality hold and its placing station (R75). -/
structure Hold where
  level : HoldLevel
  port : Port
deriving DecidableEq, Repr

/-- The condition level of a bin (section 8.6). -/
inductive Level where
  | normal | advisory | critical
deriving DecidableEq, Repr

/-- One bin record (R75). Total mass, mean moisture, worst grade and UNTRACED_CONTENT are derived from
`layers` (R76) and are not stored. `layers` is bottom to top. -/
structure BinRec where
  kind : BinKind
  capacity : Nat
  ceiling : Nat
  retained : Bool
  locked : Bool
  commodity : Option Nat
  layers : List Layer
  layerCtr : Nat
  hold : Option Hold
  level : Level
  unverified : Bool
  overfill : Bool
  inbound : Option Nat
  outbound : Option Nat
  rev : Nat
deriving DecidableEq, Repr

/-- The state of a pit (section 3.2). -/
inductive PitState where
  | empty
  | receiving (ticket : Nat)
  | loaded
deriving DecidableEq, Repr

/-- One pit record (R75, R83). -/
structure PitRec where
  capacity : Nat
  state : PitState
  layer : Option Layer
  layerCtr : Nat
  commodity : Option Nat
  unverified : Bool
  overfill : Bool
  outbound : Option Nat
  rev : Nat
deriving DecidableEq, Repr

/-- The balance counters and the balance state (R92). -/
structure Balance where
  received : Int
  shipped : Int
  rejected : Int
  dryingLoss : Int
  adjustments : Int
  isOpen : Bool
deriving DecidableEq, Repr

/-- The Inventory Unit. -/
structure Inv where
  bins : Vector BinRec 28
  pits : Vector PitRec 2
  frozen : Bool
  balance : Balance
deriving DecidableEq, Repr

/-! ### Route Controller -/

/-- The state of a segment (R97). -/
inductive SegState where
  | free
  | held (claim : Nat)
  | faulted
deriving DecidableEq, Repr

/-- One entry of the segment table (R97). `permit` is also the level of the segment's permit line (R120). -/
structure Segment where
  state : SegState
  permit : Bool
  running : Bool
  motionTime : Nat
  rev : Nat
deriving DecidableEq, Repr

/-- One configured route (R98). -/
structure Route where
  number : Nat
  source : Loc
  dest : Loc
  segments : List SegIx
  stations : List Port
  drainAllowance : Nat
  drainTime : Nat
deriving DecidableEq, Repr

/-- The causes of a trip (R112). -/
inductive TripCause where
  | limit | sourceEmpty | holdPlaced | hot | silence | stageStale | ceilingCut | released
deriving DecidableEq, Repr

/-- A transfer record (R99, R105). `openLayer` is the open layer of a transfer into a bin (R79). -/
structure Transfer where
  number : Nat
  source : Loc
  dest : Loc
  bargeHold : Nat
  requested : Option Nat
  reported : Nat
  delivered : Nat
  lots : List Nat
  shortfall : Bool
  overrun : Bool
  overfill : Bool
  untraced : Bool
  cause : Option TripCause
  massAtStart : Nat
  openLayer : Option Nat
  startTime : Nat
  tripTime : Nat
  closeTime : Nat
deriving DecidableEq, Repr

/-- The state of a claim with what is attached to it (section 6.3). `due` is the drain expiry in monotonic
milliseconds. -/
inductive ClaimState where
  | claimed
  | running (t : Transfer)
  | draining (t : Transfer) (due : Nat)
deriving DecidableEq, Repr

/-- One claim (R99). -/
structure Claim where
  number : Nat
  holder : Port
  route : Nat
  state : ClaimState
  rev : Nat
deriving DecidableEq, Repr

/-- One closed transfer of the recent ring, with the figures of its claim body (R99, R114). -/
structure ClosedTransfer where
  claim : Nat
  holder : Port
  route : Nat
  transfer : Transfer
  hard : Option Int
deriving DecidableEq, Repr

/-- The Route Controller. `ring` is oldest first. `running` is the retained running-transfer list. -/
structure Rc where
  segments : Vector Segment 20
  claims : List Claim
  claimCtr : Nat
  transferCtr : Nat
  wrapped : Bool
  ring : List ClosedTransfer
  running : List (Nat × Loc)
  dryerIn : Option Nat
  dryerOut : Option Nat
  berthIn : Option Nat
  berthOut : Option Nat
deriving DecidableEq, Repr

/-! ### Drying Unit -/

/-- The state of a batch (section 7.1). -/
inductive BatchState where
  | filling | drying | dried
deriving DecidableEq, Repr

/-- One batch (R122). -/
structure Batch where
  number : Nat
  state : BatchState
  inMass : Nat
  inSum : Nat
  grade : Nat
  lots : List Nat
  untraced : Bool
  outMass : Nat
  outMoisture : Nat
  remaining : Nat
  underdried : Bool
  fillTime : Nat
  closeTime : Nat
  outTime : Nat
deriving DecidableEq, Repr

/-- The Drying Unit. `batches` is oldest first. -/
structure Dru where
  batches : List Batch
  commodity : Option Nat
  counter : Nat
  rev : Nat
deriving DecidableEq, Repr

/-! ### Condition Monitor -/

/-- One temperature point: its stored code, the millisecond of its last good reply and its RISE reference. -/
structure Point where
  code : Byte
  good : Option Nat
  ref : Option Int
deriving DecidableEq, Repr

/-- One configured node (R134, R139). -/
structure Node where
  addr : Nat
  bin : BinIx
  cable : Nat
  noAnswer : Nat
  silent : Bool
  points : Vector Point 8
deriving DecidableEq, Repr

/-- The raw, normalised and worst value of one attribute (R141, R142). -/
structure AttrValue where
  raw : Int
  norm : Nat
  worst : Nat
deriving DecidableEq, Repr

/-- A rotation order (section 8.7). -/
inductive Order where
  | none | ordered | inProgress
deriving DecidableEq, Repr

/-- An open outbound transfer of a bin: its number and the bin's mass at START (R146). -/
structure Outbound where
  transfer : Nat
  mass : Nat
deriving DecidableEq, Repr

/-- What the CDM holds of one bin. `savedHottest` and `savedRise` are the held normalised values its condition record
retains: those of the last change of level or order (R153). -/
structure BinCondition where
  hottest : AttrValue
  rise : AttrValue
  age : AttrValue
  failed : AttrValue
  noData : Bool
  level : Level
  order : Order
  outbound : Option Outbound
  savedHottest : Nat
  savedRise : Nat
deriving DecidableEq, Repr

/-- A transaction of the cable bus (R135). -/
inductive BusCommand where
  | convert
  | readPoints (addr : Nat)
  | selfCheck (addr : Nat)
deriving DecidableEq, Repr

/-- Whose transaction is on the bus. `orphan` is a survey's transaction after the survey was aborted
(R152). -/
inductive BusOwner where
  | poll | survey | orphan
deriving DecidableEq, Repr

/-- The transaction in progress (R136). -/
structure BusTx where
  owner : BusOwner
  command : BusCommand
deriving DecidableEq, Repr

/-- The stage of the poll cycle (R137). `waiting` is the end of the conversion wait in milliseconds;
`reading` is the read in hand and the addresses still to be considered. -/
inductive PollStage where
  | idle
  | converting
  | waiting (due : Nat)
  | reading (addr : Nat) (rest : List Nat)
deriving DecidableEq, Repr

/-- A failing location: bin, cable and point (0 for a whole node) (section 8.8). -/
structure FailLoc where
  bin : BinIx
  cable : Nat
  point : Nat
deriving DecidableEq, Repr

/-- The scope of a survey. The empty list is FULL (R148). -/
abbrev Spans := List (BinIx × BinIx)

/-- The record of a running survey (section 8.8). `todo` is the scope nodes not yet done, the node in hand
first; `wait` is the end of the conversion wait. -/
structure SurveyRun where
  number : Nat
  port : Port
  spans : Spans
  startTime : Nat
  nodes : List Nat
  todo : List Nat
  attempt : Nat
  wait : Option Nat
  silentAt : Option FailLoc
  failedAt : Option FailLoc
  suspectAt : Option FailLoc
deriving DecidableEq, Repr

/-- The end status of a survey (section 8.9). -/
inductive SurveyStatus where
  | completedOk | aborted | interrupted | failedPoint | suspectPoint | nodeSilent
deriving DecidableEq, Repr

/-- One entry of the survey log (section 8.9). -/
structure SurveyEntry where
  number : Nat
  status : SurveyStatus
  startTime : Nat
  endTime : Nat
  spans : Spans
  loc : Option FailLoc
deriving DecidableEq, Repr

/-- The Condition Monitor. `pollDue` is the next expiry of the poll cycle timer. `log` is newest first. -/
structure Cdm where
  nodes : List Node
  bins : Vector BinCondition 28
  pollDue : Option Nat
  poll : PollStage
  bus : Option BusTx
  pollWait : Option BusCommand
  surveyWait : Option BusCommand
  surveyCtr : Nat
  survey : Option SurveyRun
  log : List SurveyEntry
deriving DecidableEq, Repr

/-! ### Berth Unit -/

/-- One barge hold (R154). -/
structure BargeHold where
  target : Nat
  loaded : Nat
  sum : Nat
  grade : Option Nat
  lots : List Nat
  untraced : Bool
deriving DecidableEq, Repr

/-- The state of the berth (section 9.1). -/
inductive BerthState where
  | empty | planned | closedManifest
deriving DecidableEq, Repr

/-- The berth record and the stage staleness timer. `timer` is the millisecond of the last REPORT STAGE
while the timer runs (R157, R158). -/
structure Btu where
  state : BerthState
  bargeId : Text
  commodity : Nat
  maxMoisture : Nat
  worstGrade : Nat
  hullMax : Nat
  lightDraft : Nat
  tpc : Nat
  holds : List BargeHold
  stage : Option Nat
  stageTime : Nat
  fresh : Bool
  timer : Option Nat
  ceiling : Nat
  berthTime : Nat
  closeTime : Nat
  rev : Nat
deriving DecidableEq, Repr

/-! ### Retained Store Controller -/

/-- The slot kinds of the mirror (section 10.2). -/
inductive SlotKind where
  | bin | pit | ticket | lot | batchList | berth | balance | counters | condition | survey | ring | running
deriving DecidableEq, Repr

/-- A slot of the mirror: its kind and its position within the kind, from 0. -/
structure SlotId where
  kind : SlotKind
  pos : Nat
deriving DecidableEq, Repr

/-- What a store write writes. -/
inductive WriteTarget where
  | mirror (slot : SlotId)
  | config
deriving DecidableEq, Repr

/-- The store write in progress: where, which bytes, and the millisecond it began (R173, R174). -/
structure StoreWrite where
  target : WriteTarget
  addr : Nat
  bytes : List Byte
  began : Nat
deriving DecidableEq, Repr

/-- One store write of a configuration write: the bytes of the area or of the header itself, or the header
with a new length for the area (R169). -/
inductive ConfigStep where
  | content (bytes : List Byte)
  | header (length : Nat)
deriving DecidableEq, Repr

/-- A configuration write: the port whose slot waits for it (absent after a port reset), the area (0 for
the header), the bytes staged and the writes still to be begun (R169). -/
structure ConfigJob where
  port : Option Port
  area : Fin 9
  staged : Nat
  todo : List ConfigStep
deriving DecidableEq, Repr

/-- The staging buffer of a configuration write (R169). -/
structure Staging where
  area : Nat
  total : Nat
  bytes : List Byte
deriving DecidableEq, Repr

/-- The load status of an area or of the header (R168, R169). -/
inductive LoadStatus where
  | good | failed | written
deriving DecidableEq, Repr

/-- The retained store: (address, byte) pairs, addresses strictly rising, no byte 0xFF. An unlisted
address reads 0xFF, the byte of a store never written (R172). -/
abbrev Store := List Host.Cell

/-- The Retained Store Controller and the store. `status` is indexed by area, 0 for the header. `jobs` are
the configuration writes, oldest first. `accepting` says whether the write-back queue takes identities
(R173). -/
structure Rsc where
  store : Store
  status : Vector LoadStatus 9
  staging : Option Staging
  jobs : List ConfigJob
  write : Option StoreWrite
  queue : List SlotId
  accepting : Bool
  faultLogged : Bool
deriving DecidableEq, Repr

/-! ### Event Record -/

/-- The plant event kinds (R179). -/
inductive EventKind where
  | zeroDrift | bridgeStale | segmentFault | trip | overrun | shortfall | overfill | dryerDiscrepancy
  | conditionChange | rotationOrder | cableSilent | surveyEnd | stationSilent | mirrorFault | interrupted
  | holdPlaced | holdLifted | lotUntraced
deriving DecidableEq, Repr

/-- The subject of a plant event (R178). -/
inductive Subject where
  | none
  | location (n : Nat)
  | segment (n : Nat)
  | lot (n : Nat)
  | node (addr : Nat)
  | port (n : Nat)
  | ticket (n : Nat)
  | slot (n : Nat)
deriving DecidableEq, Repr

/-- One entry of the event ring (R178). -/
structure Event where
  seq : Nat
  time : Nat
  kind : EventKind
  subject : Subject
  value : Int
deriving DecidableEq, Repr

/-- The Event Record. `ring` is oldest first. `held` are the events logged before the ring and the count
stand (R181). -/
structure Evr where
  ring : List Event
  count : Nat
  held : List Event
  standing : Bool
deriving DecidableEq, Repr

/-! ### Configuration in force -/

/-- The link area (R1, section 1.8). -/
structure LinkConfig where
  divisor : PerPort Nat
  silence : Nat
deriving DecidableEq, Repr

/-- The scale area (R20). -/
structure ScaleConfig where
  span : Nat
  calZero : Int
  division : Nat
  capacity : Nat
deriving DecidableEq, Repr

/-- One entry of the commodity table (R50). -/
structure Commodity where
  name : Text
  base : Nat
  safeMoisture : Nat
  handling : Nat
  configured : Bool
deriving DecidableEq, Repr

/-- The locations area (R73). -/
structure LocationConfig where
  pits : Vector Nat 2
  bins : Vector (BinKind × Nat) 28
deriving DecidableEq, Repr

/-- The cable map area: the period and each bin's addresses in cable order, as written (R134). -/
structure CableConfig where
  period : Nat
  cables : Vector (List Nat) 28
deriving DecidableEq, Repr

/-- The class of an attribute (R142). -/
inductive AttrClass where
  | off | advisory | critical
deriving DecidableEq, Repr

/-- The constants of one attribute (R142). -/
structure AttrConfig where
  start : Int
  full : Int
  threshold : Nat
  cls : AttrClass
deriving DecidableEq, Repr

/-- The attribute area (R142). -/
structure AttributeConfig where
  hottest : AttrConfig
  rise : AttrConfig
  age : AttrConfig
  failed : AttrConfig
  actOnAdvisory : Bool
deriving DecidableEq, Repr

/-- The berth constants area (section 10.1). -/
structure BerthConfig where
  datum : Int
  clearance : Nat
  trimBand : Nat
  tolerance : Nat
  fraction : Nat
deriving DecidableEq, Repr

/-- The configuration as loaded at the last start-up, area by area; absent while not loaded or failed. -/
structure Cfg where
  link : Option LinkConfig
  scale : Option ScaleConfig
  commodities : Option (Vector Commodity 8)
  locations : Option LocationConfig
  routes : Option (List Route)
  cables : Option CableConfig
  attributes : Option AttributeConfig
  berth : Option BerthConfig
deriving DecidableEq, Repr

/-! ### The whole part -/

/-- Where the part stands: without power, held in RESET_N, in step 2 or 3 of start-up (both NOT_READY), in
CONFIG_FAULT, READY, or writing out the queue after a RESTART (R175). -/
inductive Phase where
  | off | resetHeld | loadConfig | loadMirror | configFault | ready | restarting
deriving DecidableEq, Repr

/-- The setting of the terminal clock: the time SET CLOCK gave and the monotonic second it gave it at (R177). -/
structure ClockSetting where
  value : Nat
  at_ : Nat
deriving DecidableEq, Repr

/-- The state of the 2410. `ms` is monotonic time in milliseconds. `pending` is the queue of commands
waiting at the model's input, first in first out. -/
structure State where
  pending : List Instr
  phase : Phase
  ms : Nat
  clock : Option ClockSetting
  cfg : Cfg
  ports : PerPort SlpPort
  wbu : Wbu
  tlr : Tlr
  inv : Inv
  rc : Rc
  dru : Dru
  cdm : Cdm
  btu : Btu
  rsc : Rsc
  evr : Evr
deriving DecidableEq, Repr

/-! ### Values at the start of a start-up -/

/-- R18. -/
def SlpPort.start : SlpPort :=
  { receiver := .hunting, slot := .empty, flags := ⟨false, false, false, false⟩, notices := [],
    silent := false, timer := some 0, tx := none }

/-- R35. -/
def Wbu.start : Wbu :=
  { wsi := .aligning, window := [], latest := none, bridge := .stale, timer := none, trackOffset := 0,
    zeroDrift := false, capture := none }

/-- A bin record at its creation: empty, its ceiling at the capacity, VOLATILE and unlocked (R95, R172). -/
def BinRec.created (kind : BinKind) (capacity : Nat) : BinRec :=
  { kind, capacity, ceiling := capacity, retained := false, locked := false, commodity := none, layers := [],
    layerCtr := 0, hold := none, level := .normal, unverified := false, overfill := false, inbound := none,
    outbound := none, rev := 1 }

/-- A pit record at its creation (R95, R172). -/
def PitRec.created (capacity : Nat) : PitRec :=
  { capacity, state := .empty, layer := none, layerCtr := 0, commodity := none, unverified := false,
    overfill := false, outbound := none, rev := 1 }

/-- The balance at its creation (R172). -/
def Balance.created : Balance :=
  { received := 0, shipped := 0, rejected := 0, dryingLoss := 0, adjustments := 0, isOpen := false }

/-- R97, R121. -/
def Segment.start : Segment :=
  { state := .free, permit := false, running := false, motionTime := 0, rev := 1 }

/-- R121. -/
def Rc.start : Rc :=
  { segments := Vector.replicate 20 Segment.start, claims := [], claimCtr := 0, transferCtr := 0,
    wrapped := false, ring := [], running := [], dryerIn := none, dryerOut := none, berthIn := none,
    berthOut := none }

/-- The batch list at its creation (R124, R133). -/
def Dru.created : Dru := { batches := [], commodity := none, counter := 0, rev := 1 }

/-- An attribute as R153 leaves it. -/
def AttrValue.start : AttrValue := { raw := 0, norm := 100, worst := 100 }

/-- What the CDM holds of a bin whose condition record is at its creation (R153, R176). -/
def BinCondition.start : BinCondition :=
  { hottest := .start, rise := .start, age := .start, failed := .start, noData := false, level := .normal,
    order := .none, outbound := none, savedHottest := 100, savedRise := 100 }

/-- R153. -/
def Point.start : Point := { code := 0x80, good := none, ref := none }

/-- R153. -/
def Cdm.start : Cdm :=
  { nodes := [], bins := Vector.replicate 28 BinCondition.start, pollDue := none, poll := .idle, bus := none,
    pollWait := none, surveyWait := none, surveyCtr := 0, survey := none, log := [] }

/-- The berth record at its creation (R154, R167). -/
def Btu.created : Btu :=
  { state := .empty, bargeId := [], commodity := 0, maxMoisture := 0, worstGrade := 0, hullMax := 0,
    lightDraft := 0, tpc := 0, holds := [], stage := none, stageTime := 0, fresh := false, timer := none,
    ceiling := 0, berthTime := 0, closeTime := 0, rev := 1 }

/-- The RSC at step 1 of start-up, over a store (R175). -/
def Rsc.start (store : Store) : Rsc :=
  { store, status := Vector.replicate 9 .failed, staging := none, jobs := [], write := none, queue := [],
    accepting := false, faultLogged := false }

/-- The EVR before the ring and the count stand (R181). -/
def Evr.start : Evr := { ring := [], count := 0, held := [], standing := false }

/-- No area loaded. -/
def Cfg.none : Cfg :=
  { link := Option.none, scale := Option.none, commodities := Option.none, locations := Option.none,
    routes := Option.none, cables := Option.none, attributes := Option.none, berth := Option.none }

/-- Step 1 of every start-up (R175): monotonic time starts from 0 and each block starts as its chapter
gives. Only the retained store and the model's own queue of commands are kept. DESIGN CHOICE: events that the EVR still
holds when a RESTART begins start-up again are lost (R181; log entry 51). -/
def State.startUp (store : Store) (pending : List Instr) : State :=
  { pending, phase := .loadConfig, ms := 0, clock := none, cfg := Cfg.none,
    ports := ⟨.start, .start, .start, .start, .start⟩, wbu := .start,
    tlr := { tickets := [], lots := [], counter := 0 },
    inv := { bins := Vector.replicate 28 (BinRec.created .storage 0),
             pits := Vector.replicate 2 (PitRec.created 0), frozen := false, balance := Balance.created },
    rc := .start, dru := .created, cdm := .start, btu := .created, rsc := .start store, evr := .start }

/-- The part at step 1 of its first start-up, over a store never written (log entries 6 and 7). -/
def State.reset : State := State.startUp [] []

end Sys2Proof.Machine
end

