-- ==== Sys2Proof/Machine/Arithmetic.lean ====
section
/-! DEFINITION. The computations of chapter 4, on exact integers (R56). -/
namespace Sys2Proof.Machine

/-- The ceiling of `a / b`. -/
def ceilDiv (a b : Nat) : Nat := (a + b - 1) / b

/-! ### Weighing -/

/-- The raw mass of a sample, truncated toward zero (R21). -/
def rawMass (c : ScaleConfig) (offset counts : Int) : Int :=
  Int.tdiv ((counts - c.calZero - offset) * c.span) 65536

/-- The displayed mass: the nearest multiple of the division, ties to the even multiple (R22). -/
def displayed (division : Nat) (raw : Int) : Int :=
  let q := raw / division
  let r := raw % division
  let n := if 2 * r < division then q else if 2 * r > division then q + 1
    else if q % 2 = 0 then q else q + 1
  n * division

/-- The mass a track offset stands for, truncated toward zero (R27, R29). -/
def offsetMass (c : ScaleConfig) (offset : Int) : Int := Int.tdiv (offset * c.span) 65536

/-- Whether |offset × span / 65536| is greater than Cs × percent / 100, both taken exactly (R27, R28). -/
def offsetBeyond (c : ScaleConfig) (offset : Int) (percent : Nat) : Bool :=
  decide ((offset * c.span).natAbs * 100 > c.capacity * percent * 65536)

/-! ### Standard mass (R58) -/

/-- Water shrink, handling shrink and standard mass of a net. -/
structure Shrinks where
  water : Nat
  handling : Nat
  standard : Nat
deriving DecidableEq, Repr

/-- The shrinks and the standard mass of a net at a moisture (R58). -/
def standardMass (c : Commodity) (net moisture : Nat) : Shrinks :=
  if c.configured && decide (moisture > c.base) then
    let w := net * (1000 - moisture) / (1000 - c.base)
    let h := ceilDiv (net * c.handling) 10000
    ⟨net - w, h, w - h⟩
  else ⟨0, 0, net⟩

/-! ### Blending (R59, R60) -/

/-- The half-up mean moisture of a moisture sum over a mass; 0 over no mass (R59). -/
def meanMoisture (mass sum : Nat) : Nat := if mass = 0 then 0 else (2 * sum + mass) / (2 * mass)

/-- Total mass of parts given as (mass, moisture). -/
def partsMass (ps : List (Nat × Nat)) : Nat := (ps.map (·.1)).sum

/-- Moisture sum of parts given as (mass, moisture). -/
def partsSum (ps : List (Nat × Nat)) : Nat := (ps.map fun p => p.1 * p.2).sum

/-- The blended moisture of parts (R59). -/
def blend (ps : List (Nat × Nat)) : Nat := meanMoisture (partsMass ps) (partsSum ps)

/-- The worst of some grades, 0 when there is none (R60). -/
def worstGrade (gs : List Nat) : Nat := gs.foldl max 0

/-! ### Drying expectation (R61) -/

/-- The expected out mass of a batch (R61). -/
def expectedOut (inMass inSum outMoisture : Nat) : Nat := (1000 * inMass - inSum) / (1000 - outMoisture)

/-- The tolerance of a batch (R61). -/
def dryingTolerance (inMass perMille : Nat) : Nat := inMass * perMille / 1000

/-! ### Moisture headroom (R62, R63) -/

/-- The headroom one source unit of a moisture allows a cargo (R62). `mass` is the unit's mass. -/
def unitHeadroom (maxMoisture cargo sum mass moisture : Nat) : Nat :=
  if cargo * maxMoisture < sum then 0
  else if moisture ≤ maxMoisture then mass
  else (cargo * maxMoisture - sum) / (moisture - maxMoisture)

/-- The moisture headroom: the walk over source units (mass, moisture) in order of release (R63). -/
def moistureHeadroom (maxMoisture : Nat) : Nat → Nat → List (Nat × Nat) → Nat
  | _, _, [] => 0
  | cargo, sum, (mass, moisture) :: us =>
    let x := unitHeadroom maxMoisture cargo sum mass moisture
    if x < mass then x
    else mass + moistureHeadroom maxMoisture (cargo + mass) (sum + mass * moisture) us

/-! ### Draft and cargo ceiling (R64) -/

/-- The cargo ceiling of a barge at a stage (R64). -/
def cargoCeiling (datum : Int) (clearance hullMax lightDraft tpc stage : Nat) : Nat :=
  let channel : Int := stage + datum - clearance
  let allowed : Int := min (hullMax : Int) channel
  (allowed - lightDraft).toNat * tpc

/-! ### Target rescaling (R65, R66) -/

/-- One pass of the handing out: (remaining r, scaled remainder r′) in plan order, and units of 100 kg. -/
def handOutPass : List (Nat × Nat) → Nat → List (Nat × Nat) × Nat
  | [], units => ([], units)
  | (r, q) :: hs, units =>
    if units > 0 ∧ q + 100 ≤ r then
      let (hs', left) := handOutPass hs (units - 1)
      ((r, q + 100) :: hs', left)
    else
      let (hs', left) := handOutPass hs units
      ((r, q) :: hs', left)

/-- Passes go on until no unit is left or a whole pass hands out none (R66). `fuel` of one more than the
units is enough. -/
def handOut : Nat → List (Nat × Nat) → Nat → List (Nat × Nat)
  | 0, hs, _ => hs
  | fuel + 1, hs, units =>
    let (hs', left) := handOutPass hs units
    if left = 0 ∨ left = units then hs' else handOut fuel hs' left

/-- Put the final remainders of the unfinished barge holds back beside the finished ones. -/
def retarget : List (Nat × Nat) → List (Nat × Nat) → List Nat
  | [], _ => []
  | (target, loaded) :: hs, qs =>
    if target ≤ loaded then target :: retarget hs qs
    else match qs with
      | (_, q) :: qs => (loaded + q) :: retarget hs qs
      | [] => target :: retarget hs []

/-- The new targets of a plan, given as (target, loaded) in plan order, under a ceiling (R65, R66). -/
def rescale (ceiling : Nat) (plan : List (Nat × Nat)) : List Nat :=
  let loaded := (plan.map (·.2)).sum
  let room := ceiling - loaded
  let rs := (plan.filter fun h => h.2 < h.1).map fun h => h.1 - h.2
  let total := rs.sum
  if total ≤ room then plan.map (·.1)
  else
    let qs := rs.map fun r => (r, r * room / (100 * total) * 100)
    let units := (room - (qs.map (·.2)).sum) / 100
    retarget plan (handOut (units + 1) qs units)

/-! ### Trim (R67, R68) -/

/-- The trim of barge hold masses numbered from the bow: fore less aft (R67). -/
def trim (masses : List Nat) : Int :=
  let half := masses.length / 2
  ((masses.take half).sum : Int) - ((masses.drop (masses.length - half)).sum : Int)

/-- The trim headroom toward barge hold `k` (1-based) within a band; absent for the middle barge hold (R68). -/
def trimHeadroom (band : Nat) (masses : List Nat) (k : Nat) : Option Int :=
  let half := masses.length / 2
  if k ≤ half then some (max 0 ((band : Int) - trim masses))
  else if k > masses.length - half then some (max 0 ((band : Int) + trim masses))
  else none

/-! ### Temperature, age and percent figures (R69 to R72) -/

/-- The normalised value of a raw attribute value (R69). DESIGN CHOICE: where the constants have `full ≤ start`,
the first line that applies gives 100 at or below the start and 1 above it (log entry 35). -/
def normalise (start full raw : Int) : Nat :=
  if raw ≤ start then 100
  else if raw ≥ full then 1
  else 100 - (99 * (raw - start) / (full - start)).toNat

/-- The AGE of a bin in whole days; `clockSet` says whether the terminal clock is set (R70). -/
def ageDays (clockSet : Bool) (now fill : Nat) : Nat :=
  if !clockSet || fill == 0 || decide (fill > now) then 0 else (now - fill) / 86400

/-- The storage fill figure (R71). -/
def fillPercent (mass capacity : Nat) : Nat :=
  if capacity = 0 then 0 else min 255 (100 * mass / capacity)

/-- Survey progress in tenths remaining (R72). -/
def surveyProgress (remaining total : Nat) : Nat :=
  if total = 0 then 0 else min 9 (ceilDiv (10 * remaining) total)

end Sys2Proof.Machine
end

