-- ==== Sys2Proof/Config.lean ====
section
/-! DEFINITION. The values the manual leaves open. Each is a constant without a body, so nothing can be
proved about its value and every claim holds whatever it is. -/
namespace Sys2Proof.Config

/-- What a 4-byte unsigned figure shows or holds when the exact value lies outside 0 to 4,294,967,295.
The manual states no result there (log entry 11). -/
opaque wide32 : Nat → BitVec 32

/-- What a 4-byte signed figure shows when the exact value lies outside its range (log entry 11). -/
opaque wideSigned32 : Int → BitVec 32

/-- What an 8-byte signed balance counter holds when the exact value lies outside its range (log entry 11). -/
opaque wideSigned64 : Int → BitVec 64

/-- What a mirror field of `w` bytes holds when its figure is wider (log entry 11). -/
opaque wideField : (w : Nat) → Nat → Nat

/-- Which byte of the retained store an address past its last byte leads to, if any. The manual does not say
(log entry 12). -/
opaque landsAt : Nat → Option (BitVec 17)

/-- The byte a READ of the retained store returns at an address that leads to no byte of it (log entry 13). -/
opaque beyondStore : Nat → BitVec 8

end Sys2Proof.Config
end

