-- ==== Sys2Proof/Machine/Ops.lean ====
section
/-! DEFINITION. The operations every block uses: bytes and field widths, time, the retained store, the port
slots, plant events, notices, the write-back queue, and one event of an owning block with its revision
changes. -/
namespace Sys2Proof.Machine

/-! ### Bytes and field widths (R3, R56) -/

/-- `w` bytes of `n`, most significant byte first (R3). -/
def be : Nat → Nat → List Byte
  | 0, _ => []
  | w + 1, n => BitVec.ofNat 8 (n / 256 ^ w) :: be w n

/-- The unsigned number a list of bytes spells, most significant byte first (R3). -/
def beVal (bs : List Byte) : Nat := bs.foldl (fun a b => a * 256 + b.toNat) 0

/-- The two's complement number a list of bytes spells (R3). -/
def beSigned (bs : List Byte) : Int :=
  if 2 * beVal bs < 256 ^ bs.length then (beVal bs : Int) else (beVal bs : Int) - (256 ^ bs.length : Nat)

/-- `w` bytes of a signed number in two's complement (R3). -/
def beInt (w : Nat) (i : Int) : List Byte := be w (i % (256 ^ w : Nat)).toNat

/-- A figure held in 4 unsigned bytes; a free value when it does not fit (log entry 11). -/
def fit32 (n : Nat) : Nat := if n < 2 ^ 32 then n else (Config.wide32 n).toNat

/-- A figure held in 4 signed bytes; a free value when it does not fit (log entry 11). -/
def fitSigned32 (i : Int) : Int :=
  if -(2 ^ 31) ≤ i ∧ i < 2 ^ 31 then i else (Config.wideSigned32 i).toInt

/-- A figure held in 8 signed bytes; a free value when it does not fit (log entry 11). -/
def fitSigned64 (i : Int) : Int :=
  if -(2 ^ 63) ≤ i ∧ i < 2 ^ 63 then i else (Config.wideSigned64 i).toInt

/-- One unsigned byte. -/
def u8 (n : Nat) : List Byte := be 1 n
/-- Two unsigned bytes. -/
def u16 (n : Nat) : List Byte := be 2 n
/-- Four unsigned bytes. -/
def u32 (n : Nat) : List Byte := be 4 (fit32 n)
/-- Four signed bytes. -/
def s32 (i : Int) : List Byte := beInt 4 (fitSigned32 i)
/-- Eight signed bytes. -/
def s64 (i : Int) : List Byte := beInt 8 (fitSigned64 i)

/-- `1` at bit `k` of a flags byte when `b` holds. -/
def bit (k : Nat) (b : Bool) : Nat := if b then 2 ^ k else 0

/-- A text field: the type/length byte, then the characters (R3). -/
def textField (t : Text) : List Byte := u8 (0xC0 + t.length) ++ t

/-- The modulo-256 sum of some bytes. -/
def sumBytes (bs : List Byte) : Byte := bs.foldl (· + ·) 0

/-- The check byte of some bytes: the two's complement of their modulo-256 sum (section 1.2, 10.1, 10.2). -/
def checkByte (bs : List Byte) : Byte := -(sumBytes bs)

/-- A frame: opener, length, sequence, kind, body and check (section 1.2). -/
def frame (seq kind : Byte) (body : List Byte) : List Byte :=
  let inner := BitVec.ofNat 8 body.length :: seq :: kind :: body
  (0xC3 : Byte) :: inner ++ [checkByte inner]

/-! ### Codes -/

/-- The port's number (00_scope.md). -/
def portNo : Port → Nat
  | .office => 0 | .scale => 1 | .dryer => 2 | .yard => 3 | .dock => 4

/-- The port of a number. -/
def portOf : Nat → Option Port
  | 0 => some .office | 1 => some .scale | 2 => some .dryer | 3 => some .yard | 4 => some .dock | _ => none

/-- All five ports in order. -/
def allPorts : List Port := [.office, .scale, .dryer, .yard, .dock]

/-- The result code's byte (section 1.4). -/
def Code.byte : Code → Byte
  | .ok => 0x00 | .changed => 0x01 | .expired => 0x02 | .cancelled => 0x03 | .gone => 0x04
  | .role => 0x10 | .busy => 0x11 | .stale => 0x12 | .conflict => 0x13 | .full => 0x14 | .notFound => 0x15
  | .badState => 0x16 | .range => 0x17 | .motion => 0x18 | .bridge => 0x19 | .held => 0x1A | .wet => 0x1B
  | .commodity => 0x1C | .grade => 0x1D | .hot => 0x1E | .noRoom => 0x1F | .tooLate => 0x20
  | .backward => 0x21 | .foreign => 0x22 | .locked => 0x23 | .frozen => 0x24 | .faulted => 0x25
  | .notReady => 0x26 | .belowContent => 0x27

/-- The notice kind's byte (section 1.6). -/
def NoticeKind.byte : NoticeKind → Byte
  | .trip => 0xE0 | .transferClosed => 0xE1 | .segmentFault => 0xE2 | .rotationOrder => 0xE3
  | .condition => 0xE4 | .hold => 0xE5 | .dryerDiscrepancy => 0xE6 | .targetsRescaled => 0xE7
  | .stageStale => 0xE8 | .stationSilent => 0xE9 | .surveyDone => 0xEA | .bridgeFault => 0xEB

/-- The plant event kind's code (R179). -/
def EventKind.code : EventKind → Nat
  | .zeroDrift => 1 | .bridgeStale => 2 | .segmentFault => 3 | .trip => 4 | .overrun => 5 | .shortfall => 6
  | .overfill => 7 | .dryerDiscrepancy => 8 | .conditionChange => 9 | .rotationOrder => 10
  | .cableSilent => 11 | .surveyEnd => 12 | .stationSilent => 13 | .mirrorFault => 14 | .interrupted => 15
  | .holdPlaced => 16 | .holdLifted => 17 | .lotUntraced => 18

/-- The subject type and number of a plant event (R178). -/
def Subject.code : Subject → Nat × Nat
  | .none => (0, 0) | .location n => (1, n) | .segment n => (2, n) | .lot n => (3, n) | .node n => (4, n)
  | .port n => (5, n) | .ticket n => (6, n) | .slot n => (7, n)

/-- The trip cause's code (R99). -/
def TripCause.code : TripCause → Nat
  | .limit => 1 | .sourceEmpty => 2 | .holdPlaced => 3 | .hot => 4 | .silence => 5 | .stageStale => 6
  | .ceilingCut => 7 | .released => 8

/-- The location number (section 5.1). -/
def Loc.number : Loc → Nat
  | .bin i => i.val + 1 | .pit i => i.val + 29 | .dryer => 31 | .berth => 32 | .reject => 33

/-- The bin of an index 1 to 28. -/
def binOf (n : Nat) : Option BinIx := if h : 1 ≤ n ∧ n ≤ 28 then some ⟨n - 1, by omega⟩ else none
/-- The pit of an index 1 or 2. -/
def pitOf (n : Nat) : Option PitIx := if h : 1 ≤ n ∧ n ≤ 2 then some ⟨n - 1, by omega⟩ else none
/-- The segment of a number 1 to 20. -/
def segOf (n : Nat) : Option SegIx := if h : 1 ≤ n ∧ n ≤ 20 then some ⟨n - 1, by omega⟩ else none

/-- The location of a location number (section 5.1). -/
def Loc.ofNumber (n : Nat) : Option Loc :=
  if n ≤ 28 then (binOf n).map .bin
  else if n ≤ 30 then (pitOf (n - 28)).map .pit
  else if n = 31 then some .dryer else if n = 32 then some .berth else if n = 33 then some .reject else none

/-- The condition level's code (section 5.2). -/
def Level.code : Level → Nat
  | .normal => 0 | .advisory => 1 | .critical => 2

/-- The quality hold's code, 0 for NONE (R77). -/
def HoldLevel.code : HoldLevel → Nat
  | .standard => 1 | .strict => 2

/-- The code of a hold that may be absent. -/
def holdCode (h : Option Hold) : Nat := match h with | some h => h.level.code | none => 0

/-- The placing port of a hold, 0 when NONE (R77). -/
def holdPort (h : Option Hold) : Nat := match h with | some h => portNo h.port | none => 0

/-- The mirror slot kind's code (section 10.2). -/
def SlotKind.code : SlotKind → Nat
  | .bin => 1 | .pit => 2 | .ticket => 3 | .lot => 4 | .batchList => 6 | .berth => 7 | .balance => 16
  | .counters => 17 | .condition => 18 | .survey => 19 | .ring => 20 | .running => 21

/-! ### Small collections -/

/-- Change one element of a fixed collection. -/
def upd {α : Type} {n : Nat} (v : Vector α n) (i : Fin n) (f : α → α) : Vector α n := v.set i (f v[i])

/-- The value of one port. -/
def PerPort.get {α : Type} (x : PerPort α) : Port → α
  | .office => x.office | .scale => x.scale | .dryer => x.dryer | .yard => x.yard | .dock => x.dock

/-- Change the value of one port. -/
def PerPort.upd {α : Type} (x : PerPort α) (p : Port) (f : α → α) : PerPort α :=
  match p with
  | .office => { x with office := f x.office }
  | .scale => { x with scale := f x.scale }
  | .dryer => { x with dryer := f x.dryer }
  | .yard => { x with yard := f x.yard }
  | .dock => { x with dock := f x.dock }

/-- Apply a function at every port. -/
def PerPort.map {α β : Type} (f : α → β) (x : PerPort α) : PerPort β :=
  ⟨f x.office, f x.scale, f x.dryer, f x.yard, f x.dock⟩

/-- The next number after `ctr`, wrapping from `top` to 1 and passing over the numbers in `used`.
`fuel` bounds the search; `used.length` passes are enough. -/
def issueFrom (top : Nat) (used : List Nat) : Nat → Nat → Nat
  | 0, n => n
  | fuel + 1, n => if n ∈ used then issueFrom top used fuel (if n ≥ top then 1 else n + 1) else n

/-- The number issued from a counter (R37, R78, R99, R105, R124). -/
def issueNumber (top : Nat) (used : List Nat) (ctr : Nat) : Nat :=
  issueFrom top used used.length (if ctr ≥ top then 1 else ctr + 1)

/-- The lowest position not in `used` (log entry 19). -/
def freePos (used : List Nat) : Nat :=
  ((List.range (used.length + 1)).find? (fun i => !used.contains i)).getD 0

/-- The next revision: 65535 is followed by 1 (R10). -/
def nextRev (r : Nat) : Nat := if r ≥ 65535 then 1 else r + 1

/-! ### The retained store -/

/-- The byte at an address of the store; a byte never written reads 0xFF (R172). -/
def Store.read : Store → Nat → Byte
  | [], _ => 0xFF
  | (a, b) :: m, x => if a = x then b else Store.read m x

/-- Store one byte, keeping the canonical form. -/
def Store.write1 : Store → Nat → Byte → Store
  | [], x, v => if v = 0xFF then [] else [(x, v)]
  | (a, b) :: m, x, v =>
    if x < a then (if v = 0xFF then (a, b) :: m else (x, v) :: (a, b) :: m)
    else if x = a then (if v = 0xFF then m else (x, v) :: m)
    else (a, b) :: Store.write1 m x v

/-- The size of the retained store, 128 KiB. -/
def storeSize : Nat := 0x20000

/-- The byte of the store an address leads to: itself within the store, and past its last byte a free value,
which may be none (log entry 12). -/
def storePlace (a : Nat) : Option Nat := if a < storeSize then some a else (Config.landsAt a).map (·.toNat)

/-- Store one byte at an address of the store bus. A byte that leads to no place is lost (log entry 12). -/
def Store.put (m : Store) (a : Nat) (v : Byte) : Store :=
  match storePlace a with
  | some x => m.write1 x v
  | none => m

/-- The byte at an address of the store bus, a free value when the address leads to no place (log entry 13). -/
def Store.get (m : Store) (a : Nat) : Byte :=
  match storePlace a with
  | some x => m.read x
  | none => Config.beyondStore a

/-- Store bytes from an address onward (R174). -/
def Store.write : Store → Nat → List Byte → Store
  | m, _, [] => m
  | m, a, v :: vs => Store.write (m.put a v) (a + 1) vs

/-- Every address of the store lies above `a`, addresses rise strictly and no byte is 0xFF. -/
def Store.wfAbove : Option Nat → Store → Bool
  | _, [] => true
  | lo, (a, b) :: m => (match lo with | some l => decide (l < a) | none => true) && b != 0xFF && Store.wfAbove (some a) m

/-- The canonical form of the store: equal memories are equal lists. -/
def Store.wf (m : Store) : Bool := Store.wfAbove none m

/-- `n` bytes of the store from address `a` (R174). -/
def Store.slice (m : Store) (a n : Nat) : List Byte := (List.range n).map fun i => m.get (a + i)

/-! ### Time (R177) -/

/-- Monotonic seconds. -/
def State.secs (s : State) : Nat := s.ms / 1000

/-- Terminal time: 0 while UNSET, then the time set and one more with each monotonic second. -/
def State.term (s : State) : Nat :=
  match s.clock with
  | none => 0
  | some c => fit32 (c.value + (s.secs - c.at_))

/-- Time moves on to `t` when it is short of it (log entry 3). -/
def State.advanceTo (s : State) (t : Nat) : State := { s with ms := max s.ms t }

/-! ### Ports -/

/-- One port of the part. -/
def State.port (s : State) (p : Port) : SlpPort := s.ports.get p

/-- Change one port. -/
def State.modPort (s : State) (p : Port) (f : SlpPort → SlpPort) : State :=
  { s with ports := s.ports.upd p f }

/-- Put an answer into a slot that holds a request being acted on, under the request's sequence byte and
kind (R6). -/
def SlpPort.reply (code : Code) (body : List Byte) (q : SlpPort) : SlpPort :=
  match q.slot with
  | .acting seq kind => { q with slot := .answering ⟨seq, kind, code, body⟩ none }
  | _ => q

/-- The kind byte of WATCH (R5). -/
def watchKind : Byte := 0x03

/-- End a parked watch on `r` with a code and a body (R14). -/
def SlpPort.endWatch (r : RecRef) (code : Code) (body : List Byte) (q : SlpPort) : SlpPort :=
  match q.slot with
  | .parked seq w => if w.subject = r then { q with slot := .answering ⟨seq, watchKind, code, body⟩ none } else q
  | _ => q

/-- A notice joins the newest end of a port's queue, or is dropped with NOTICE_OVERRUN when 8 wait (R9). -/
def SlpPort.offer (n : Notice) (q : SlpPort) : SlpPort :=
  if q.notices.length < 8 then { q with notices := q.notices ++ [n] }
  else { q with flags := { q.flags with noticeOverrun := true } }

/-- A block hands a notice to the ports of a set of stations, once to each distinct port (R8). -/
def State.offer (s : State) (ports : List Port) (kind : NoticeKind) (body : List Byte) : State :=
  let give (p : Port) (q : SlpPort) : SlpPort := if ports.contains p then q.offer { kind, body } else q
  { s with ports :=
    ⟨give .office s.ports.office, give .scale s.ports.scale, give .dryer s.ports.dryer,
     give .yard s.ports.yard, give .dock s.ports.dock⟩ }

/-- The owner reports a revision change to all five SLPs (R10, R14). -/
def State.reportRevision (s : State) (r : RecRef) (rev : Nat) : State :=
  { s with ports := s.ports.map (SlpPort.endWatch r .changed (u16 rev)) }

/-- The owner reports a deletion to all five SLPs; `body` is the retirement state of a lot (R10, R14, R52). -/
def State.reportDeletion (s : State) (r : RecRef) (body : List Byte) : State :=
  { s with ports := s.ports.map (SlpPort.endWatch r .gone body) }

/-! ### The write-back queue and the event ring -/

/-- An owner hands a record over for write-back (R173). -/
def State.enqueue (s : State) (id : SlotId) : State :=
  if s.rsc.accepting && !s.rsc.queue.contains id then
    { s with rsc := { s.rsc with queue := s.rsc.queue ++ [id] } }
  else s

/-- An event enters the ring at its newest end with the next sequence number; the 65th overwrites the
oldest (R178). -/
def Evr.enter (r : Evr) (time : Nat) (kind : EventKind) (subject : Subject) (value : Int) : Evr :=
  let count := fit32 (r.count + 1)
  let e : Event := { seq := count, time, kind, subject, value }
  { r with count, ring := (r.ring ++ [e]).drop (r.ring.length + 1 - 64) }

/-- A block logs a plant event (R178). Before the ring and the count stand it is held (R181). -/
def State.logEvent (s : State) (kind : EventKind) (subject : Subject) (value : Int) : State :=
  if s.evr.standing then
    let s := { s with evr := s.evr.enter s.term kind subject (fitSigned32 value) }
    (s.enqueue ⟨.ring, 0⟩).enqueue ⟨.counters, 0⟩
  else
    { s with evr := { s.evr with
        held := s.evr.held ++ [⟨0, s.term, kind, subject, fitSigned32 value⟩] } }

/-! ### Configuration in force -/

/-- The link settings: those of the link area, or D = 155 and 15 s (R1). -/
def State.link (s : State) : LinkConfig :=
  s.cfg.link.getD { divisor := ⟨155, 155, 155, 155, 155⟩, silence := 15 }

/-- An entry of the commodity table; not configured while no table is loaded or beyond its 8 entries (R50). -/
def State.commodity (s : State) (c : Nat) : Commodity :=
  match s.cfg.commodities with
  | some t => if h : c < 8 then t[c] else ⟨[], 0, 0, 0, false⟩
  | none => ⟨[], 0, 0, 0, false⟩

/-- Whether a commodity number is at most 7 and its entry is configured. -/
def State.isConfigured (s : State) (c : Nat) : Bool := decide (c < 8) && (s.commodity c).configured

/-- The berth constants area. -/
def State.berthCfg (s : State) : BerthConfig := s.cfg.berth.getD ⟨0, 0, 0, 0, 0⟩

/-- The attribute area; every attribute of class OFF while none is loaded. -/
def State.attrCfg (s : State) : AttributeConfig :=
  s.cfg.attributes.getD ⟨⟨0, 0, 0, .off⟩, ⟨0, 0, 0, .off⟩, ⟨0, 0, 0, .off⟩, ⟨0, 0, 0, .off⟩, false⟩

/-- The configured route of a number (R98). -/
def State.route (s : State) (n : Nat) : Option Route := (s.cfg.routes.getD []).find? (·.number == n)

/-! ### Records -/

/-- One bin record. -/
def State.bin (s : State) (i : BinIx) : BinRec := s.inv.bins[i]
/-- One pit record. -/
def State.pit (s : State) (i : PitIx) : PitRec := s.inv.pits[i]
/-- One segment. -/
def State.seg (s : State) (i : SegIx) : Segment := s.rc.segments[i]
/-- The open ticket of a number. -/
def State.ticket (s : State) (n : Nat) : Option Ticket := s.tlr.tickets.find? (·.number == n)
/-- The lot of a number. -/
def State.lot (s : State) (n : Nat) : Option Lot := s.tlr.lots.find? (·.number == n)
/-- The claim of a number. -/
def State.claim (s : State) (n : Nat) : Option Claim := s.rc.claims.find? (·.number == n)
/-- What the CDM holds of a bin. -/
def State.cond (s : State) (i : BinIx) : BinCondition := s.cdm.bins[i]

/-- Change one bin record. -/
def State.modBin (s : State) (i : BinIx) (f : BinRec → BinRec) : State :=
  { s with inv := { s.inv with bins := upd s.inv.bins i f } }
/-- Change one pit record. -/
def State.modPit (s : State) (i : PitIx) (f : PitRec → PitRec) : State :=
  { s with inv := { s.inv with pits := upd s.inv.pits i f } }
/-- Change one segment. -/
def State.modSeg (s : State) (i : SegIx) (f : Segment → Segment) : State :=
  { s with rc := { s.rc with segments := upd s.rc.segments i f } }
/-- Change the ticket of a number. -/
def State.modTicket (s : State) (n : Nat) (f : Ticket → Ticket) : State :=
  { s with tlr := { s.tlr with tickets := s.tlr.tickets.map fun t => if t.number = n then f t else t } }
/-- Change the lot of a number. -/
def State.modLot (s : State) (n : Nat) (f : Lot → Lot) : State :=
  { s with tlr := { s.tlr with lots := s.tlr.lots.map fun l => if l.number = n then f l else l } }
/-- Change the claim of a number. -/
def State.modClaim (s : State) (n : Nat) (f : Claim → Claim) : State :=
  { s with rc := { s.rc with claims := s.rc.claims.map fun c => if c.number = n then f c else c } }
/-- Change what the CDM holds of a bin. -/
def State.modCond (s : State) (i : BinIx) (f : BinCondition → BinCondition) : State :=
  { s with cdm := { s.cdm with bins := upd s.cdm.bins i f } }

/-- The revision of a record, absent when the record does not exist (R10, R11). -/
def State.rev (s : State) : RecRef → Option Nat
  | .bin i => some (s.bin i).rev
  | .pit i => some (s.pit i).rev
  | .ticket n => (s.ticket n).map (·.rev)
  | .lot n => (s.lot n).map (·.rev)
  | .claim n => (s.claim n).map (·.rev)
  | .batchList => some s.dru.rev
  | .berth => some s.btu.rev
  | .segment i => some (s.seg i).rev

/-- Set the revision of a record to the next one (R10). -/
def State.raiseRev (s : State) : RecRef → State
  | .bin i => s.modBin i fun b => { b with rev := nextRev b.rev }
  | .pit i => s.modPit i fun b => { b with rev := nextRev b.rev }
  | .ticket n => s.modTicket n fun t => { t with rev := nextRev t.rev }
  | .lot n => s.modLot n fun t => { t with rev := nextRev t.rev }
  | .claim n => s.modClaim n fun t => { t with rev := nextRev t.rev }
  | .batchList => { s with dru := { s.dru with rev := nextRev s.dru.rev } }
  | .berth => { s with btu := { s.btu with rev := nextRev s.btu.rev } }
  | .segment i => s.modSeg i fun t => { t with rev := nextRev t.rev }

/-- The mirror slot of a lot. A lot past the 400 slots, which only a mirror that gave back more tickets than free
lot entries can bring about, has none (log entry 34). -/
def Lot.slot (l : Lot) : Option SlotId := if l.pos < 400 then some ⟨.lot, l.pos⟩ else none

/-- The mirror slot of a record; claims and segments are not retained (R10). -/
def State.slotOf (s : State) : RecRef → Option SlotId
  | .bin i => some ⟨.bin, i⟩
  | .pit i => some ⟨.pit, i⟩
  | .ticket n => (s.ticket n).map fun t => ⟨.ticket, t.pos⟩
  | .lot n => (s.lot n).bind Lot.slot
  | .batchList => some ⟨.batchList, 0⟩
  | .berth => some ⟨.berth, 0⟩
  | .claim _ => none
  | .segment _ => none

/-- A record is handed to the write-back queue. -/
def State.handOver (s : State) (r : RecRef) : State :=
  match s.slotOf r with
  | some id => s.enqueue id
  | none => s

/-- One revision change: the revision rises, the record is handed over, and the five SLPs are told (R10). -/
def State.revise (s : State) (r : RecRef) : State :=
  let s := (s.raiseRev r).handOver r
  match s.rev r with
  | some rev => s.reportRevision r rev
  | none => s

/-! ### One event of an owning block

Pits, bins, the batch list and the berth raise their revision once for each event, however many of its
changes they see (R94, R124, R155). `Ev` carries the state through one event with the records so touched
and the change set gathered for the Ticket and Lot Register (R51). -/

/-- The causes of a release (R51). -/
inductive ReleaseCause where
  | transfer | rejected | shipped | dropped | adjusted
deriving DecidableEq, Repr

/-- A state in the course of one event. -/
structure Ev where
  st : State
  touched : List RecRef
  adds : List Nat
  rels : List (Nat × ReleaseCause)

/-- The start of an event. -/
def Ev.start (s : State) : Ev := { st := s, touched := [], adds := [], rels := [] }

/-- Apply a change of state in an event. -/
def Ev.map (e : Ev) (f : State → State) : Ev := { e with st := f e.st }

/-- The event makes a revision change of a record; it is handed over at once and its revision rises when
the event ends. -/
def Ev.touch (e : Ev) (r : RecRef) : Ev :=
  { e with st := e.st.handOver r, touched := if e.touched.contains r then e.touched else e.touched ++ [r] }

/-- The event touches a record when `b` holds. -/
def Ev.touchIf (e : Ev) (b : Bool) (r : RecRef) : Ev := if b then e.touch r else e

/-- The revision changes of an event take effect, once for each record (R94, R124, R155). -/
def Ev.commit (e : Ev) : Ev :=
  { e with st := e.touched.foldl (fun s r => s.revise r) e.st, touched := [] }

/-- Log a plant event. -/
def Ev.log (e : Ev) (k : EventKind) (x : Subject) (v : Int) : Ev := e.map (·.logEvent k x v)

/-- Offer a notice. -/
def Ev.offer (e : Ev) (ports : List Port) (k : NoticeKind) (body : List Byte) : Ev := e.map (·.offer ports k body)

/-- Hand a slot over. -/
def Ev.enqueue (e : Ev) (id : SlotId) : Ev := e.map (·.enqueue id)

/-- Hand the slot of a lot over, in the register or just out of it. -/
def Ev.enqueueLot (e : Ev) (l : Lot) : Ev :=
  match l.slot with
  | some id => e.enqueue id
  | none => e

/-- Answer the request that port `p` holds. -/
def Ev.reply (e : Ev) (p : Port) (code : Code) (body : List Byte) : Ev :=
  e.map (·.modPort p (SlpPort.reply code body))

/-- Run one event of an owning block from a state to a state. -/
def State.event (s : State) (f : Ev → Ev) : State := (f (Ev.start s)).commit.st

end Sys2Proof.Machine
end

