-- ==== Sys2Proof/Machine/Flags.lean ====
section
/-! DEFINITION. Every flags byte of an answer, a notice or a mirror slot. -/
namespace Sys2Proof.Machine

/-- The port flags byte (R6). -/
def PortFlags.byte (f : PortFlags) : Nat :=
  bit 0 f.collided + bit 1 f.frameError + bit 2 f.noticeOverrun + bit 3 f.silentTripped

/-- All port flags clear (R6). -/
def PortFlags.clear : PortFlags := ⟨false, false, false, false⟩

/-- The bridge flags of the bridge report (R29). -/
def Wbu.flags (w : Wbu) : Nat := bit 0 w.zeroDrift + bit 1 w.capture.isSome

/-- The bridge state's code (section 2.3). -/
def Bridge.code : Bridge → Nat
  | .stale => 0 | .overload => 1 | .underload => 2 | .motion => 3 | .stable => 4

/-- The ticket state's code (section 3.1). -/
def TicketState.code : TicketState → Nat
  | .opened => 0 | .weighedIn => 1 | .sampled => 2 | .assigned => 3 | .dumped => 4

/-- The presence byte of the ticket body (section 3.1). -/
def Ticket.presence (t : Ticket) (tare : Bool) : Nat :=
  bit 0 t.gross.isSome + bit 1 t.sample.isSome
    + bit 2 (match t.sample with | some x => x.estimated | none => false)
    + bit 3 t.pit.isSome + bit 4 tare

/-- The bin kind's code; a pit is 2 (R77). -/
def BinKind.code : BinKind → Nat
  | .storage => 0 | .wet => 1

/-- The origin's code (R77). -/
def Origin.code : Origin → Nat
  | .intake => 0 | .dryer => 1 | .rotation => 2 | .survey => 3

/-- The pit state's code (R77). -/
def PitState.code : PitState → Nat
  | .empty => 0 | .receiving _ => 1 | .loaded => 2

/-- The flags byte of the location header (R77). -/
def locationFlags (locked unverified overfill untraced commodity : Bool) : Nat :=
  bit 0 locked + bit 1 unverified + bit 2 overfill + bit 3 untraced + bit 4 commodity

/-- The segment state's code and holder claim (R97). -/
def SegState.code : SegState → Nat × Nat
  | .free => (0, 0) | .held c => (1, c) | .faulted => (2, 0)

/-- The transfer flags of the claim body (R99). -/
def Transfer.flags (t : Transfer) : Nat :=
  bit 0 t.shortfall + bit 1 t.overrun + bit 2 t.overfill + bit 3 t.untraced

/-- The batch state's code (R125). -/
def BatchState.code : BatchState → Nat
  | .filling => 0 | .drying => 1 | .dried => 2

/-- The batch flags (R125). -/
def Batch.flags (b : Batch) : Nat := bit 0 b.underdried + bit 1 b.untraced

/-- The berth state's code (R156). -/
def BerthState.code : BerthState → Nat
  | .empty => 0 | .planned => 1 | .closedManifest => 2

/-- The flags of the berth header (R156). -/
def berthFlags (b : Btu) (inbound : Bool) : Nat := bit 0 (!b.fresh) + bit 1 b.stage.isSome + bit 2 inbound

/-- A barge hold is finished when its loaded mass is at least its target (R154). -/
def BargeHold.finished (h : BargeHold) : Bool := decide (h.target ≤ h.loaded)

/-- The flags of a barge hold entry (R156). -/
def BargeHold.flags (h : BargeHold) : Nat := bit 0 h.untraced + bit 1 h.finished

/-- The attribute class's code (R144). -/
def AttrClass.code : AttrClass → Nat
  | .off => 0 | .advisory => 1 | .critical => 2

/-- The rotation order's code (R145). -/
def Order.code : Order → Nat
  | .none => 0 | .ordered => 1 | .inProgress => 2

/-- The survey status code (section 8.9). -/
def SurveyStatus.code : SurveyStatus → Nat
  | .completedOk => 0 | .aborted => 1 | .interrupted => 2 | .failedPoint => 3 | .suspectPoint => 4
  | .nodeSilent => 5

/-- The load status's code (R170). -/
def LoadStatus.code : LoadStatus → Nat
  | .good => 0 | .failed => 1 | .written => 2

/-- The readiness's code in the terminal summary (R182). -/
def Phase.readiness : Phase → Nat
  | .ready => 0
  | .configFault => 2
  | .off | .resetHeld | .loadConfig | .loadMirror | .restarting => 1

end Sys2Proof.Machine
end

