-- ==== Sys2Proof/Machine/Bodies.lean ====
section
/-! DEFINITION. The bodies of records as READ RECORD, the answers and the notices carry them. -/
namespace Sys2Proof.Machine

/-! ### Derived figures of locations (R76) -/

/-- Total mass of a bin. -/
def BinRec.mass (b : BinRec) : Nat := (b.layers.map (·.mass)).sum
/-- Mean moisture of a bin, 0 when empty. -/
def BinRec.mean (b : BinRec) : Nat := blend (b.layers.map fun l => (l.mass, l.moisture))
/-- Worst grade of a bin, 0 when empty. -/
def BinRec.worst (b : BinRec) : Nat := worstGrade (b.layers.map (·.grade))
/-- UNTRACED_CONTENT of a bin. -/
def BinRec.untraced (b : BinRec) : Bool := b.layers.any (·.untraced)

/-- The layers of a pit: one or none. -/
def PitRec.layers (b : PitRec) : List Layer := b.layer.toList
/-- Mass of a pit. -/
def PitRec.mass (b : PitRec) : Nat := (b.layers.map (·.mass)).sum

/-! ### Location body (R77) -/

/-- One layer entry. -/
def Layer.entry (l : Layer) : List Byte :=
  u16 l.number ++ u32 l.mass ++ u16 l.moisture ++ u8 l.grade ++ u8 l.origin.code ++ u8 (bit 0 l.untraced)
    ++ u32 l.fillTime ++ u8 l.lots.length ++ l.lots.flatMap u16

/-- The 31-byte header of a bin. `first` and `count` are the first position and the entries reported. -/
def BinRec.header (b : BinRec) (i : BinIx) (first count : Nat) : List Byte :=
  u8 (i.val + 1) ++ u8 b.kind.code ++ u8 0 ++ u32 b.capacity ++ u32 b.ceiling ++ u8 (bit 0 b.retained)
    ++ u8 (locationFlags b.locked b.unverified b.overfill b.untraced b.commodity.isSome)
    ++ u8 (b.commodity.getD 0) ++ u8 (holdCode b.hold) ++ u8 (holdPort b.hold) ++ u8 b.level.code
    ++ u8 (b.inbound.getD 0) ++ u8 (b.outbound.getD 0) ++ u16 0 ++ u32 b.mass ++ u16 b.mean ++ u8 b.worst
    ++ u8 b.layers.length ++ u8 first ++ u8 count

/-- The number of the ticket a pit is RECEIVING, 0 when it is not. -/
def PitState.ticket : PitState → Nat
  | .receiving t => t
  | _ => 0

/-- The 31-byte header of a pit; fields a pit does not have are 0. DESIGN CHOICE: mean moisture and worst grade are
those of the pit's layer (R77; log entry 44). -/
def PitRec.header (b : PitRec) (i : PitIx) (first count : Nat) : List Byte :=
  u8 (i.val + 29) ++ u8 2 ++ u8 b.state.code ++ u32 b.capacity ++ u32 b.capacity ++ u8 0
    ++ u8 (locationFlags false b.unverified b.overfill false b.commodity.isSome)
    ++ u8 (b.commodity.getD 0) ++ u8 0 ++ u8 0 ++ u8 0 ++ u8 0 ++ u8 (b.outbound.getD 0)
    ++ u16 b.state.ticket ++ u32 b.mass ++ u16 (blend (b.layers.map fun l => (l.mass, l.moisture)))
    ++ u8 (worstGrade (b.layers.map (·.grade))) ++ u8 b.layers.length ++ u8 first ++ u8 count

/-- As many whole entries as fit in `room` bytes. -/
def fitting : Nat → List (List Byte) → List (List Byte)
  | _, [] => []
  | room, x :: xs => if x.length ≤ room then x :: fitting (room - x.length) xs else []

/-- The room for entries in an answer frame after code, flags, revision and a header (section 1.2). -/
def entryRoom (header : List Byte) : Nat := 240 - 4 - header.length

/-- A header and the entries from a position upward that fit in the frame. -/
def listing (header : Nat → Nat → List Byte) (entries : List (List Byte)) (first : Nat) : List Byte :=
  let xs := fitting (entryRoom (header first 0)) (entries.drop first)
  header first xs.length ++ xs.flatten

/-! ### Ticket and lot bodies (chapter 3) -/

/-- The pit number of the ticket body: 1 for P1, 2 for P2, 0 when absent. -/
def pitNumber (p : Option PitIx) : Nat := match p with | some i => i.val + 1 | none => 0

/-- The ticket body with a state code and the tare, if one is shown (section 3.1). -/
def Ticket.bodyAs (t : Ticket) (state : Nat) (tare : Option Nat) : List Byte :=
  let gross := t.gross.getD ⟨0, 0⟩
  let sample := t.sample.getD ⟨0, false, 0⟩
  u16 t.number ++ u8 state ++ u8 t.commodity ++ u8 (t.presence tare.isSome) ++ u32 gross.mass ++ u32 gross.time
    ++ u16 sample.moisture ++ u8 sample.grade ++ u8 (pitNumber t.pit) ++ u32 (tare.getD 0) ++ textField t.plate

/-- The ticket body of an open ticket. -/
def Ticket.body (t : Ticket) : List Byte := t.bodyAs t.state.code none

/-- The revision and body of an open ticket. -/
def Ticket.answer (t : Ticket) : List Byte := u16 t.rev ++ t.body

/-- The lot body (R49). -/
def Lot.body (l : Lot) : List Byte :=
  u16 l.number ++ u8 (if l.damaged then 3 else 0) ++ u8 l.commodity ++ u8 l.grade ++ u8 (bit 0 l.wet)
    ++ u8 (bit 0 l.estimated) ++ u32 l.net ++ u16 l.moisture ++ u32 l.standard ++ u32 l.waterShrink
    ++ u32 l.handlingShrink ++ u32 l.intakeTime ++ u16 l.refs

/-! ### Segment and claim bodies (chapter 6) -/

/-- The segment body (R97). -/
def Segment.body (x : Segment) (i : SegIx) : List Byte :=
  u8 (i.val + 1) ++ u8 x.state.code.1 ++ u8 x.state.code.2 ++ u8 (bit 0 x.permit) ++ u8 (bit 0 x.running)
    ++ u32 x.motionTime

/-- The hard allowance figure: 0 at or below 0, 0xFFFFFFFF when no hard limit applies (R99). -/
def hardFigure : Option Int → List Byte
  | none => be 4 0xFFFFFFFF
  | some v => u32 v.toNat

/-- The claim body of a claim that holds a transfer record, open or closed (R99). -/
def transferBody (claim : Nat) (holder : Port) (route state : Nat) (t : Transfer) (hard : Option Int) : List Byte :=
  u8 claim ++ u8 (portNo holder) ++ u8 route ++ u8 state ++ u16 t.number ++ u8 t.source.number
    ++ u8 t.dest.number ++ u8 t.bargeHold ++ u8 t.flags ++ u8 (match t.cause with | some c => c.code | none => 0)
    ++ u32 (t.requested.getD 0) ++ u32 t.reported ++ u32 t.delivered ++ hardFigure hard
    ++ u32 t.startTime ++ u32 t.tripTime ++ u32 t.closeTime ++ u8 t.lots.length ++ t.lots.flatMap u16

/-- The claim body of a CLAIMED claim: the locations of its route and no transfer (R99). -/
def claimedBody (claim : Nat) (holder : Port) (route : Nat) (source dest : Nat) : List Byte :=
  u8 claim ++ u8 (portNo holder) ++ u8 route ++ u8 0 ++ u16 0 ++ u8 source ++ u8 dest ++ u8 0 ++ u8 0 ++ u8 0
    ++ u32 0 ++ u32 0 ++ u32 0 ++ hardFigure none ++ u32 0 ++ u32 0 ++ u32 0 ++ u8 0

/-- The claim body of a closed transfer (R99, R114). -/
def ClosedTransfer.body (c : ClosedTransfer) : List Byte :=
  transferBody c.claim c.holder c.route 3 c.transfer c.hard

/-! ### Batch list body (R125) -/

/-- The mass of a batch (R122). -/
def Batch.mass (b : Batch) : Nat := match b.state with | .dried => b.remaining | _ => b.inMass

/-- The DRIED batches, oldest first. -/
def Dru.dried (d : Dru) : List Batch := d.batches.filter fun b => b.state == .dried

/-- The DRIED mass of the DRYER. -/
def Dru.driedMass (d : Dru) : Nat := (d.dried.map (·.remaining)).sum

/-- The DRYER's mass (R122). -/
def Dru.mass (d : Dru) : Nat := (d.batches.map Batch.mass).sum

/-- One batch entry. -/
def Batch.entry (b : Batch) : List Byte :=
  let out := b.state == .dried
  u16 b.number ++ u8 b.state.code ++ u8 b.flags ++ u32 b.inMass ++ u16 (meanMoisture b.inMass b.inSum)
    ++ u32 (if out then b.outMass else 0) ++ u16 (if out then b.outMoisture else 0)
    ++ u32 (if out then b.remaining else 0) ++ u8 b.grade ++ u32 b.fillTime ++ u32 b.closeTime ++ u32 b.outTime
    ++ u8 b.lots.length ++ b.lots.flatMap u16

/-- The header of the batch list, with the RC's claims of the DRYER. -/
def Dru.header (d : Dru) (inbound outbound : Option Nat) (first count : Nat) : List Byte :=
  u8 (bit 0 d.commodity.isSome) ++ u8 (d.commodity.getD 0) ++ u8 d.batches.length ++ u8 (inbound.getD 0)
    ++ u8 (outbound.getD 0) ++ u16 d.counter ++ u32 d.driedMass ++ u8 first ++ u8 count

/-! ### Berth body (R156) -/

/-- The cargo (R154). -/
def Btu.cargo (b : Btu) : Nat := (b.holds.map (·.loaded)).sum
/-- The cargo moisture sum (R154). -/
def Btu.cargoSum (b : Btu) : Nat := (b.holds.map (·.sum)).sum

/-- One barge hold entry. -/
def BargeHold.entry (h : BargeHold) : List Byte :=
  u32 h.target ++ u32 h.loaded ++ u16 (meanMoisture h.loaded h.sum) ++ u8 (h.grade.getD 0) ++ u8 h.flags
    ++ u8 h.lots.length ++ h.lots.flatMap u16

/-- The header of the berth, with the RC's inbound claim. `first` is the number of the first barge hold
reported. -/
def Btu.header (b : Btu) (inbound : Option Nat) (first count : Nat) : List Byte :=
  u8 b.state.code ++ u8 (berthFlags b inbound.isSome) ++ u8 b.commodity ++ u16 b.maxMoisture ++ u8 b.worstGrade
    ++ u16 b.hullMax ++ u16 b.lightDraft ++ u32 b.tpc ++ u16 (b.stage.getD 0) ++ u32 b.stageTime ++ u32 b.ceiling
    ++ u32 b.cargo ++ u16 (meanMoisture b.cargo b.cargoSum) ++ u8 (inbound.getD 0) ++ u8 b.holds.length
    ++ u32 b.berthTime ++ u32 b.closeTime ++ u8 first ++ u8 count ++ textField b.bargeId

/-! ### Survey log entry (section 8.9) -/

/-- The eight span bytes; pairs beyond the count are 0. -/
def spanBytes (spans : Spans) : List Byte :=
  ((spans.flatMap fun (p : BinIx × BinIx) => u8 (p.1.val + 1) ++ u8 (p.2.val + 1)) ++ List.replicate 8 0).take 8

/-- A failing location: bin, cable and point, all 0 when absent. -/
def failBytes : Option FailLoc → List Byte
  | some l => u8 (l.bin.val + 1) ++ u8 l.cable ++ u8 l.point
  | none => u8 0 ++ u8 0 ++ u8 0

/-- One survey log entry. -/
def SurveyEntry.bytes (e : SurveyEntry) : List Byte :=
  u8 e.number ++ u8 e.status.code ++ u8 (bit 0 e.loc.isSome + bit 1 e.spans.isEmpty) ++ u32 e.startTime
    ++ u32 e.endTime ++ u8 e.spans.length ++ spanBytes e.spans ++ failBytes e.loc

/-! ### The bridge report and the survey report (R29, R148) -/

/-- The scale parameters; the division is 0 while none are loaded, and then no sample is acted on (R20). -/
def State.scale (s : State) : ScaleConfig := s.cfg.scale.getD ⟨0, 0, 0, 0⟩

/-- The displayed mass of the latest sample, 0 when the window is empty (R22, R29). -/
def State.bridgeMass (s : State) : Int :=
  match s.wbu.window.getLast? with
  | some raw => displayed s.scale.division raw
  | none => 0

/-- The bridge report (R29). -/
def State.bridgeReport (s : State) : List Byte :=
  u8 s.wbu.bridge.code ++ u8 s.wbu.flags ++ u8 s.wbu.window.length ++ s32 s.bridgeMass
    ++ s32 (offsetMass s.scale s.wbu.trackOffset)

/-- The survey report (R148). DESIGN CHOICE: the starting port of an IDLE survey is shown as 0 (log entry 16). -/
def State.surveyReport (s : State) : List Byte :=
  let entries := u8 s.cdm.log.length ++ s.cdm.log.flatMap SurveyEntry.bytes
  match s.cdm.survey with
  | some r =>
    u8 1 ++ u8 r.number ++ u8 (portNo r.port) ++ u8 (surveyProgress r.todo.length r.nodes.length) ++ entries
  | none => u8 0 ++ u8 0 ++ u8 0 ++ u8 0 ++ entries

/-! ### Event entry (R178, R180) -/

/-- One event ring entry, 16 bytes. -/
def Event.entry (e : Event) : List Byte :=
  u32 e.seq ++ u32 e.time ++ u8 e.kind.code ++ u8 e.subject.code.1 ++ u16 e.subject.code.2 ++ s32 e.value

end Sys2Proof.Machine
end

