-- ==== Sys2Proof/Machine/Register.lean ====
section
/-! DEFINITION. The lot register: references, change sets and retirement (section 3.5). -/
namespace Sys2Proof.Machine

/-- A lot retires: its deletion is reported with the retirement state, RETIRED_UNTRACED logs LOT_UNTRACED,
and its entry is freed and handed over (R52). -/
def Ev.retireLot (e : Ev) (n : Nat) (shipped : Bool) : Ev :=
  match e.st.lot n with
  | none => e
  | some l =>
    let e := e.map (·.reportDeletion (.lot n) (u8 (if shipped then 1 else 2)))
    let e := if shipped then e else e.log .lotUntraced (.lot n) l.net
    let e := e.map fun s => { s with tlr := { s.tlr with lots := s.tlr.lots.filter (·.number != n) } }
    e.enqueueLot l

/-- Whether a release of this cause retires a lot as shipped (R52). -/
def ReleaseCause.ships : ReleaseCause → Bool
  | .shipped | .rejected => true
  | .transfer | .dropped | .adjusted => false

/-- The cause of the last release of a lot in a set: the one that brings its count to 0 (R52). -/
def lastRelease (n : Nat) (rels : List (Nat × ReleaseCause)) : Option ReleaseCause :=
  ((rels.filter (·.1 == n)).getLast?).map (·.2)

/-- The reference count of a lot after a change set: additions first, then releases (R51). -/
def countAfter (refs : Nat) (n : Nat) (adds : List Nat) (rels : List (Nat × ReleaseCause)) : Nat :=
  refs + adds.count n - (rels.map (·.1)).count n

/-- The lots a change set names, each once. DESIGN CHOICE: they take their revisions, and retire, in the order in
which the set first mentions them, additions first (R51; log entry 42). -/
def changeNames (adds : List Nat) (rels : List (Nat × ReleaseCause)) : List Nat :=
  (adds ++ rels.map (·.1)).eraseDups

/-- One lot takes its count after a change set; a lot that stays in the register and whose count changed
raises its revision (R51; log entry 14). -/
def Ev.recount (e : Ev) (n : Nat) (adds : List Nat) (rels : List (Nat × ReleaseCause)) : Ev :=
  match e.st.lot n with
  | none => e
  | some l =>
    let c := countAfter l.refs n adds rels
    if c = l.refs then e
    else
      let e := e.map (·.modLot n fun l => { l with refs := c })
      if c = 0 then e else e.map (·.revise (.lot n))

/-- A lot of a change set whose count is 0 retires (R51, R52). -/
def Ev.retireIfUnnamed (e : Ev) (n : Nat) (rels : List (Nat × ReleaseCause)) : Ev :=
  match e.st.lot n with
  | none => e
  | some l =>
    if l.refs = 0 then
      e.retireLot n (match lastRelease n rels with | some c => c.ships | none => false)
    else e

/-- The TLR applies the change set gathered in an event, whole (R51). -/
def Ev.applyChangeSet (e : Ev) : Ev :=
  let names := changeNames e.adds e.rels
  let f := names.foldl (fun f n => f.recount n e.adds e.rels) e
  let f := names.foldl (fun f n => f.retireIfUnnamed n e.rels) f
  { f with adds := [], rels := [] }

/-- Lots join a list: each is an addition (R51). -/
def Ev.add (e : Ev) (lots : List Nat) : Ev := { e with adds := e.adds ++ lots }

/-- Lots leave a list with a cause: each is a release (R51). -/
def Ev.release (e : Ev) (lots : List Nat) (c : ReleaseCause) : Ev :=
  { e with rels := e.rels ++ lots.map fun n => (n, c) }

/-- The free lot entries (R39). -/
def State.freeLots (s : State) : Nat := 400 - s.tlr.lots.length

/-- Lots of a part enter a lot list with room for `room` lots: the new list, the additions, and the lots
dropped (R80, R126, R163). -/
def joinLots (room : Nat) : List Nat → List Nat → List Nat × List Nat × List Nat
  | held, [] => (held, [], [])
  | held, n :: ns =>
    if held.contains n then joinLots room held ns
    else if held.length < room then
      let (l, a, d) := joinLots room (held ++ [n]) ns
      (l, n :: a, d)
    else
      let (l, a, d) := joinLots room held ns
      (l, n :: a, n :: d)

end Sys2Proof.Machine
end

