-- ==== Sys2Proof/Machine/Routes.lean ====
section
/-! DEFINITION. The Route Controller's allowances, trips and freeing of claims (chapter 6). -/
namespace Sys2Proof.Machine

/-! ### Source units (R63, R103, R127) -/

/-- A unit of grain as it will leave its source. -/
structure SourceUnit where
  mass : Nat
  moisture : Nat
  grade : Nat
  underdried : Bool
deriving DecidableEq, Repr

/-- A layer as a source unit. -/
def Layer.toUnit (l : Layer) : SourceUnit := ⟨l.mass, l.moisture, l.grade, false⟩

/-- A DRIED batch as a source unit. -/
def Batch.toUnit (b : Batch) : SourceUnit := ⟨b.remaining, b.outMoisture, b.grade, b.underdried⟩

/-- The units a source can release, in order of release. -/
def State.units (s : State) : Loc → List SourceUnit
  | .bin i => (s.bin i).layers.map Layer.toUnit
  | .pit i => if (s.pit i).state = .loaded then (s.pit i).layers.map Layer.toUnit else []
  | .dryer => s.dru.dried.map Batch.toUnit
  | .berth => []
  | .reject => []

/-- Total mass of some units. -/
def unitsMass (us : List SourceUnit) : Nat := (us.map (·.mass)).sum

/-- The commodity of a location, absent when it holds none. -/
def State.commodityOf (s : State) : Loc → Option Nat
  | .bin i => (s.bin i).commodity
  | .pit i => (s.pit i).commodity
  | .dryer => s.dru.commodity
  | .berth => if s.btu.state = .planned then some s.btu.commodity else none
  | .reject => none

/-- Whether a destination is a STORAGE bin. -/
def State.isStorage (s : State) : Loc → Bool
  | .bin i => (s.bin i).kind == .storage
  | _ => false

/-- Whether grain of a commodity in a unit is admissible to storage (R73, R103). -/
def State.storable (s : State) (commodity : Option Nat) (u : SourceUnit) : Bool :=
  match commodity with
  | some c => s.isConfigured c && decide (u.moisture ≤ (s.commodity c).safeMoisture) && !u.underdried
  | none => false

/-- Whether a unit is admissible to a destination for the admissible source mass (R104). -/
def State.admissible (s : State) (source dest : Loc) (u : SourceUnit) : Bool :=
  if s.isStorage dest then s.storable (s.commodityOf source) u
  else if dest = .berth then decide (u.grade ≤ s.btu.worstGrade)
  else true

/-- The layers of a bin below an open layer; all of them while none is open (R82, R110). -/
def belowOpen (openLayer : Option Nat) (ls : List Layer) : List Layer :=
  match openLayer with
  | none => ls
  | some n => ls.takeWhile (·.number != n)

/-- Whether a transfer is a self route's: source and destination are one location (R98). -/
def Transfer.isSelf (t : Transfer) : Bool := t.source == t.dest

/-- The units the admissible source mass of a transfer walks (R104, R110). -/
def State.walkUnits (s : State) (t : Transfer) : List SourceUnit :=
  match t.source with
  | .bin i => if t.isSelf then (belowOpen t.openLayer (s.bin i).layers).map Layer.toUnit else s.units t.source
  | l => s.units l

/-! ### Allowances (R104) -/

/-- Sum of the units, in order, ending before the first that is not admissible. -/
def State.admissibleMass (s : State) (t : Transfer) : Nat :=
  unitsMass ((s.walkUnits t).takeWhile (s.admissible t.source t.dest))

/-- The hard allowances that only a loading transfer has. -/
def State.berthAllowances (s : State) (t : Transfer) : List Int :=
  let b := s.btu
  let holdRoom : Int := match b.holds[t.bargeHold - 1]? with
    | some h => (h.target : Int) - h.loaded
    | none => 0
  let cargoRoom : Int := (b.ceiling : Int) - b.cargo
  let moisture : Int :=
    moistureHeadroom b.maxMoisture b.cargo b.cargoSum ((s.units t.source).map fun u => (u.mass, u.moisture))
  let trims := (trimHeadroom s.berthCfg.trimBand (b.holds.map (·.loaded)) t.bargeHold).toList
  [holdRoom, cargoRoom, moisture] ++ trims

/-- The hard allowances of a transfer (R104). -/
def State.hardAllowances (s : State) (t : Transfer) : List Int :=
  (match t.requested with | some r => [(r : Int) - t.delivered] | none => [])
    ++ (match t.dest with
        | .bin i => if t.isSelf then [] else [((s.bin i).ceiling : Int) - (s.bin i).mass]
        | _ => [])
    ++ (if t.dest = .berth then s.berthAllowances t else [])
    ++ (if s.isStorage t.dest || t.dest == .berth then [(s.admissibleMass t : Int)] else [])
    ++ (if t.isSelf then [(t.massAtStart : Int) - t.delivered] else [])

/-- The least of some allowances; absent when there is none. -/
def least : List Int → Option Int
  | [] => none
  | x :: xs => some (xs.foldl min x)

/-- The least hard allowance; absent when no hard limit applies (R104). -/
def State.leastHard (s : State) (t : Transfer) : Option Int := least (s.hardAllowances t)

/-- The soft allowance: the source's releasable mass; a self route has none (R104). -/
def State.soft (s : State) (t : Transfer) : Option Nat :=
  if t.isSelf then none else some (unitsMass (s.units t.source))

/-- The drain allowance of a route (R98). -/
def State.drainAllowance (s : State) (route : Nat) : Nat :=
  match s.route route with | some r => r.drainAllowance | none => 0

/-- The drain time of a route in seconds (R98). -/
def State.drainTime (s : State) (route : Nat) : Nat :=
  match s.route route with | some r => r.drainTime | none => 0

/-- The least hard allowance is at or below the drain allowance: the trip point is reached (R104). -/
def State.atLimit (s : State) (route : Nat) (t : Transfer) : Bool :=
  match s.leastHard t with
  | some x => decide (x ≤ s.drainAllowance route)
  | none => false

/-! ### Claims -/

/-- The open transfer of a claim. -/
def Claim.transfer (c : Claim) : Option Transfer :=
  match c.state with
  | .claimed => none
  | .running t => some t
  | .draining t _ => some t

/-- The RUNNING transfer of a claim. -/
def Claim.runningTransfer (c : Claim) : Option Transfer :=
  match c.state with | .running t => some t | _ => none

/-- Whether a claim is RUNNING with a transfer that satisfies a test. -/
def Claim.runs (c : Claim) (test : Transfer → Bool) : Bool :=
  match c.state with | .running t => test t | _ => false

/-- Change the open transfer of a claim. -/
def ClaimState.modTransfer (f : Transfer → Transfer) : ClaimState → ClaimState
  | .claimed => .claimed
  | .running t => .running (f t)
  | .draining t due => .draining (f t) due

/-- Change the open transfer of the claim of a number. -/
def State.modTransfer (s : State) (n : Nat) (f : Transfer → Transfer) : State :=
  s.modClaim n fun c => { c with state := c.state.modTransfer f }

/-- The claim body as it stands (R99). -/
def State.claimBody (s : State) (c : Claim) : List Byte :=
  match c.state with
  | .claimed =>
    match s.route c.route with
    | some r => claimedBody c.number c.holder c.route r.source.number r.dest.number
    | none => claimedBody c.number c.holder c.route 0 0
  | .running t => transferBody c.number c.holder c.route 1 t (s.leastHard t)
  | .draining t _ => transferBody c.number c.holder c.route 2 t (s.leastHard t)

/-- The claim body of the claim of a number. -/
def State.claimBodyOf (s : State) (n : Nat) : List Byte :=
  match s.claim n with | some c => s.claimBody c | none => []

/-- The segments held by a claim, in segment order. -/
def State.segsOf (s : State) (n : Nat) : List SegIx :=
  (List.finRange 20).filter fun i => (s.seg i).state == .held n

/-- Change a segment with a revision change (R97). -/
def Ev.changeSeg (e : Ev) (i : SegIx) (f : Segment → Segment) : Ev :=
  e.map fun s => (s.modSeg i f).revise (.segment i)

/-- A location's record is touched; REJECT has none (R94, R124, R155). -/
def Ev.touchLoc (e : Ev) : Loc → Ev
  | .bin i => e.touch (.bin i)
  | .pit i => e.touch (.pit i)
  | .dryer => e.touch .batchList
  | .berth => e.touch .berth
  | .reject => e

/-- Set or clear the inbound claim of a destination and report it (R75, R105, R114). -/
def Ev.setInbound (e : Ev) (l : Loc) (c : Option Nat) : Ev :=
  match l with
  | .bin i => (e.map (·.modBin i fun b => { b with inbound := c })).touch (.bin i)
  | .dryer => (e.map fun s => { s with rc := { s.rc with dryerIn := c } }).touch .batchList
  | .berth => (e.map fun s => { s with rc := { s.rc with berthIn := c } }).touch .berth
  | .pit _ => e
  | .reject => e

/-- Set or clear the outbound claim of a source and report it (R75, R105, R114). -/
def Ev.setOutbound (e : Ev) (l : Loc) (c : Option Nat) : Ev :=
  match l with
  | .bin i => (e.map (·.modBin i fun b => { b with outbound := c })).touch (.bin i)
  | .pit i => (e.map (·.modPit i fun b => { b with outbound := c })).touch (.pit i)
  | .dryer => (e.map fun s => { s with rc := { s.rc with dryerOut := c } }).touch .batchList
  | .berth => (e.map fun s => { s with rc := { s.rc with berthOut := c } }).touch .berth
  | .reject => e

/-- The inbound claim of a location. -/
def State.inboundOf (s : State) : Loc → Option Nat
  | .bin i => (s.bin i).inbound
  | .dryer => s.rc.dryerIn
  | .berth => s.rc.berthIn
  | .pit _ => none
  | .reject => none

/-- The outbound claim of a location. -/
def State.outboundOf (s : State) : Loc → Option Nat
  | .bin i => (s.bin i).outbound
  | .pit i => (s.pit i).outbound
  | .dryer => s.rc.dryerOut
  | .berth => s.rc.berthOut
  | .reject => none

/-- The claim of number `n` ends (R101). `keep` is the faulted segment of a segment fault. -/
def Ev.freeClaim (e : Ev) (n : Nat) (keep : Option SegIx) : Ev :=
  let segs := (e.st.segsOf n).filter fun i => keep != some i
  let e := segs.foldl (fun e i => e.changeSeg i fun x => { x with state := .free, permit := false }) e
  let e := e.map fun s => { s with rc := { s.rc with claims := s.rc.claims.filter (·.number != n) } }
  e.map (·.reportDeletion (.claim n) [])

/-! ### Trips (R111, R112) -/

/-- The RUNNING transfer of claim `n` trips; a claim that is not RUNNING is left as it is (R111). -/
def Ev.trip (e : Ev) (n : Nat) (cause : TripCause) : Ev :=
  match e.st.claim n with
  | none => e
  | some c =>
    match c.state with
    | .running t =>
      let t := { t with cause := some cause, tripTime := e.st.term }
      let due := e.st.ms + 1000 * e.st.drainTime c.route
      let e := (e.st.segsOf n).foldl (fun e i => e.changeSeg i fun x => { x with permit := false }) e
      let e := e.map fun s => (s.modClaim n fun c => { c with state := .draining t due }).revise (.claim n)
      let e := (e.touchLoc t.source).touchLoc t.dest
      let e := e.map fun s => { s with rc := { s.rc with running := s.rc.running.filter (·.1 != t.number) } }
      let e := e.enqueue ⟨.running, 0⟩
      let e := e.log .trip (.location t.source.number) cause.code
      e.offer [c.holder] .trip (u8 n ++ u16 t.number ++ u8 cause.code ++ u32 t.delivered)
    | _ => e

/-- Trip every RUNNING claim whose transfer satisfies a test, in claim table order. -/
def Ev.tripWhere (e : Ev) (test : Transfer → Bool) (cause : TripCause) : Ev :=
  ((e.st.rc.claims.filter fun c => c.runs test).map (·.number)).foldl (fun e n => e.trip n cause) e

/-- The RC's judgement of a RUNNING transfer: SOURCE_EMPTY after an increment of its own that leaves no
source mass, otherwise LIMIT at the trip point (R109). -/
def Ev.judge (e : Ev) (n : Nat) (afterIncrement : Bool) : Ev :=
  match e.st.claim n with
  | none => e
  | some c =>
    match c.state with
    | .running t =>
      if afterIncrement && e.st.soft t == some 0 then e.trip n .sourceEmpty
      else if e.st.atLimit c.route t then e.trip n .limit
      else e
    | _ => e

/-- The RC recomputes the RUNNING transfers that satisfy a test and judges each (R109). -/
def Ev.judgeWhere (e : Ev) (test : Claim → Transfer → Bool) : Ev :=
  ((e.st.rc.claims.filter fun c => c.runs (test c)).map (·.number)).foldl (fun e n => e.judge n false) e

end Sys2Proof.Machine
end

