-- ==== Sys2Proof/Machine/Condition.lean ====
section
/-! DEFINITION. The Condition Monitor's attributes, condition levels and rotation orders (sections 8.4 to 8.7). -/
namespace Sys2Proof.Machine

/-! ### Point readings (section 8.4, R140) -/

/-- The temperature a point code stands for; absent for a code that is not valid (section 8.4). -/
def codeTemp (c : Byte) : Option Int :=
  if c.toNat ≤ 0x7F then some c.toNat
  else if 0xC4 ≤ c.toNat then some ((c.toNat : Int) - 256)
  else none

/-- The effective code of a point at a monotonic millisecond (R140). -/
def Point.effective (p : Point) (now : Nat) : Byte :=
  match p.good with
  | none => 0x80
  | some t => if now - t > 600000 then 0x80 else p.code

/-- The temperature of a point by its effective code. -/
def Point.temp (p : Point) (now : Nat) : Option Int := codeTemp (p.effective now)

/-- The nodes of a bin in cable order (R134). -/
def State.nodesOf (s : State) (i : BinIx) : List Node := s.cdm.nodes.filter (·.bin == i)

/-- The points of a bin. -/
def State.pointsOf (s : State) (i : BinIx) : List Point := (s.nodesOf i).flatMap (·.points.toList)

/-- Change every point of a bin. -/
def State.modPoints (s : State) (i : BinIx) (f : Point → Point) : State :=
  { s with cdm := { s.cdm with nodes := s.cdm.nodes.map fun n =>
      if n.bin = i then { n with points := n.points.map f } else n } }

/-- A valid point without a reference takes its present temperature as reference (R141). -/
def Point.capture (now : Nat) (p : Point) : Point :=
  match p.ref, p.temp now with
  | none, some t => { p with ref := some t }
  | _, _ => p

/-- At a rotation close a point takes its present temperature as reference, or has it emptied (R146). -/
def Point.rereference (now : Nat) (p : Point) : Point := { p with ref := p.temp now }

/-! ### Attributes (R141, R142) -/

/-- The class an attribute is judged by: OFF unless f > s and 1 ≤ t ≤ 99 (R142). -/
def AttrConfig.judged (c : AttrConfig) : AttrClass :=
  if c.full > c.start ∧ 1 ≤ c.threshold ∧ c.threshold ≤ 99 then c.cls else .off

/-- A raw value is formed: normalised, and the worst value follows (R69, R142). -/
def AttrValue.take (c : AttrConfig) (raw : Int) (a : AttrValue) : AttrValue :=
  let n := normalise c.start c.full raw
  { raw, norm := n, worst := min a.worst n }

/-- An attribute held at a formation enters the worst value with its held value (R142). -/
def AttrValue.keep (a : AttrValue) : AttrValue := { a with worst := min a.worst a.norm }

/-- Whether an attribute is exceeded (R69). -/
def AttrValue.exceeded (c : AttrConfig) (a : AttrValue) : Bool := decide (a.norm ≤ c.threshold)

/-- Greatest of a list of integers, absent when empty. -/
def greatest : List Int → Option Int
  | [] => none
  | x :: xs => some (xs.foldl max x)

/-- The RISE of a point: temperature less reference (R141). -/
def Point.rise (now : Nat) (p : Point) : Option Int :=
  match p.temp now, p.ref with
  | some t, some r => some (t - r)
  | _, _ => none

/-- Clamp to −128…127 (R141). -/
def clampRise (i : Int) : Int := max (-128) (min 127 i)

/-- The bottom layer's AGE in days (R70, R141). -/
def State.ageOf (s : State) (i : BinIx) : Nat :=
  match (s.bin i).layers with
  | l :: _ => ageDays s.clock.isSome s.term l.fillTime
  | [] => 0

/-- The level the four attributes of a bin call for (R143). -/
def BinCondition.judge (b : BinCondition) (a : AttributeConfig) : Level :=
  let pairs := [(a.hottest, b.hottest), (a.rise, b.rise), (a.age, b.age), (a.failed, b.failed)]
  if pairs.any fun p => p.1.judged == .critical && p.2.exceeded p.1 then .critical
  else if pairs.any fun p => p.1.judged == .advisory && p.2.exceeded p.1 then .advisory
  else .normal

/-! ### Level changes and rotation orders (R144, R145) -/

/-- One attribute entry of the CONDITION notice (R144). -/
def attrEntry (c : AttrConfig) (a : AttrValue) : List Byte :=
  beInt 2 (min a.raw 32767) ++ u8 a.norm ++ u8 a.worst ++ u8 (c.judged.code + bit 7 (a.exceeded c))

/-- The CONDITION notice body (R144). -/
def conditionBody (i : BinIx) (old : Level) (b : BinCondition) (a : AttributeConfig) : List Byte :=
  u8 (i.val + 1) ++ u8 old.code ++ u8 b.level.code ++ u8 (bit 0 b.noData) ++ attrEntry a.hottest b.hottest
    ++ attrEntry a.rise b.rise ++ attrEntry a.age b.age ++ attrEntry a.failed b.failed

/-- The condition record takes the normalised values of HOTTEST and RISE as they stand (R153). -/
def BinCondition.save (b : BinCondition) : BinCondition :=
  { b with savedHottest := b.hottest.norm, savedRise := b.rise.norm }

/-- A bin's rotation order changes, with its notice and its write-back (R145, R146, R147, R153). -/
def Ev.setOrder (e : Ev) (i : BinIx) (o : Order) (cause transfer mass : Nat) : Ev :=
  let e := e.map (·.modCond i fun b => { b with order := o }.save)
  let e := e.offer [.yard, .office] .rotationOrder
    (u8 (i.val + 1) ++ u8 o.code ++ u8 cause ++ u16 transfer ++ u32 mass)
  e.enqueue ⟨.condition, i⟩

/-- A rotation order is issued at a level, unless one stands (R145). -/
def Ev.issueOrder (e : Ev) (i : BinIx) (level : Level) : Ev :=
  match (e.st.cond i).order with
  | .none =>
    let o := if (e.st.cond i).outbound.isSome then Order.inProgress else Order.ordered
    let e := e.setOrder i o (if level = .critical then 1 else 2) 0 0
    e.log .rotationOrder (.location (i.val + 1)) level.code
  | _ => e

/-- A bin's condition level is set; a change of level has the effects of R144, and its condition record takes the held
values of that moment (R153). -/
def Ev.setLevel (e : Ev) (i : BinIx) (level : Level) : Ev :=
  let old := (e.st.cond i).level
  if old = level then e
  else
    let e := e.map fun s => (s.modCond i fun b => { b with level }.save).modBin i fun b => { b with level }
    let e := (e.touch (.bin i)).enqueue ⟨.condition, i⟩
    let e := e.offer allPorts .condition (conditionBody i old (e.st.cond i) e.st.attrCfg)
    let e := e.log .conditionChange (.location (i.val + 1)) level.code
    match level with
    | .critical =>
      (e.tripWhere (fun t => t.dest == .bin i && !t.isSelf) .hot).issueOrder i .critical
    | .advisory => if e.st.attrCfg.actOnAdvisory then e.issueOrder i .advisory else e
    | .normal => e

/-- A formation of a bin from its points and layers: its poll, or its part of a survey (R141 to R143). An
empty bin forms no attribute (R147). -/
def Ev.formBin (e : Ev) (i : BinIx) : Ev :=
  if (e.st.bin i).layers.isEmpty then e
  else
    let now := e.st.ms
    let a := e.st.attrCfg
    let e := e.map (·.modPoints i (Point.capture now))
    let ps := e.st.pointsOf i
    let age : Int := e.st.ageOf i
    let failed : Int := (ps.filter fun p => p.effective now == 0x81).length
    let e := e.map (·.modCond i fun b =>
      let b := match greatest (ps.filterMap fun p => p.temp now), greatest (ps.filterMap (Point.rise now)) with
        | some h, some r =>
          { b with hottest := b.hottest.take a.hottest h, rise := b.rise.take a.rise (clampRise r), noData := false }
        | _, _ => { b with hottest := b.hottest.keep, rise := b.rise.keep, noData := true }
      { b with age := b.age.take a.age age, failed := b.failed.take a.failed failed })
    e.setLevel i ((e.st.cond i).judge a)

/-- The INV reports a change of a bin's bottom layer: AGE is formed anew and the level judged (R143). As at every
formation, a bin with no configured node is flagged NO_DATA (R141). DESIGN CHOICE: in a bin with nodes NO_DATA stays
as last formed with HOTTEST and RISE, since R143 forms AGE alone from new figures (log entry 22). -/
def Ev.bottomChanged (e : Ev) (i : BinIx) : Ev :=
  let a := e.st.attrCfg
  let age : Int := e.st.ageOf i
  let bare := (e.st.nodesOf i).isEmpty
  let e := e.map (·.modCond i fun b =>
    { b with hottest := b.hottest.keep, rise := b.rise.keep, age := b.age.take a.age age, failed := b.failed.keep,
             noData := b.noData || bare })
  e.setLevel i ((e.st.cond i).judge a)

/-- A bin's figures once its last layer has left (R147). -/
def BinCondition.emptied (b : BinCondition) : BinCondition :=
  { b with
    hottest := { b.hottest with norm := 100, worst := 100 }
    rise := { b.rise with norm := 100, worst := 100 }
    age := { b.age with worst := 100 }
    failed := { b.failed with worst := 100 }
    noData := false }

/-- The INV reports that a bin's last layer left (R147). DESIGN CHOICE: the CONDITION notice of the change of level
shows the figures before their reset (log entry 36), and the condition record takes those after it (log entry 43). -/
def Ev.binEmptied (e : Ev) (i : BinIx) : Ev :=
  let moved := (e.st.cond i).level != .normal
  let e := e.setLevel i .normal
  let e := e.map fun s => (s.modPoints i fun p => { p with ref := none }).modCond i fun b =>
    if moved then b.emptied.save else b.emptied
  match (e.st.cond i).order with
  | .none => e
  | _ => e.setOrder i .none 6 0 0

/-- The RC reports the START of a transfer out of a bin (R146). -/
def Ev.outboundStarted (e : Ev) (i : BinIx) (transfer mass : Nat) : Ev :=
  let e := e.map (·.modCond i fun b => { b with outbound := some ⟨transfer, mass⟩ })
  if (e.st.cond i).order = .ordered then e.setOrder i .inProgress 3 transfer mass else e

/-- The RC reports the close of a transfer out of a bin (R146). -/
def Ev.outboundClosed (e : Ev) (i : BinIx) (transfer mass delivered : Nat) : Ev :=
  let now := e.st.ms
  let e := e.map (·.modCond i fun b => { b with outbound := none })
  if delivered * 100 ≥ e.st.berthCfg.fraction * mass then
    let e := e.map fun s => (s.modPoints i (Point.rereference now)).modCond i fun b =>
      { b with
        hottest := { b.hottest with worst := 100 }
        rise := { b.rise with worst := 100 }
        age := { b.age with worst := 100 }
        failed := { b.failed with worst := 100 } }
    if (e.st.cond i).order = .none then e else e.setOrder i .none 4 transfer mass
  else if (e.st.cond i).order = .inProgress then e.setOrder i .ordered 5 transfer mass
  else e

end Sys2Proof.Machine
end

