-- ==== Sys2Proof/Machine/Layers.lean ====
section
/-! DEFINITION. The Inventory Unit's operations on layer lists, pits and the balance (sections 5.3, 5.4, 5.8). -/
namespace Sys2Proof.Machine

/-- A part: the grain released from one layer or batch (R81, R132). -/
structure Part where
  mass : Nat
  moisture : Nat
  grade : Nat
  lots : List Nat
  untraced : Bool
  commodity : Nat
deriving DecidableEq, Repr

/-- Total mass of some parts. -/
def totalMass (ps : List Part) : Nat := (ps.map (·.mass)).sum

/-- A part of a layer. -/
def Layer.part (l : Layer) (mass : Nat) (commodity : Option Nat) : Part :=
  ⟨mass, l.moisture, l.grade, l.lots, l.untraced, commodity.getD 0⟩

/-- What taking a mass from the bottom of a layer list gives: the parts, the layers left and the layers
exhausted (R81). -/
structure Drawn where
  parts : List Part
  rest : List Layer
  exhausted : List Layer
deriving DecidableEq, Repr

/-- Take a mass from the bottom of a layer list (R81). -/
def drawLayers (commodity : Option Nat) : Nat → List Layer → Drawn
  | _, [] => ⟨[], [], []⟩
  | m, l :: ls =>
    if m = 0 then ⟨[], l :: ls, []⟩
    else if m < l.mass then ⟨[l.part m commodity], { l with mass := l.mass - m } :: ls, []⟩
    else
      let d := drawLayers commodity (m - l.mass) ls
      ⟨l.part l.mass commodity :: d.parts, d.rest, l :: d.exhausted⟩

/-! ### The balance (R92) -/

/-- Change the balance and hand it over. -/
def Ev.modBalance (e : Ev) (f : Balance → Balance) : Ev :=
  (e.map fun s => { s with inv := { s.inv with balance := f s.inv.balance } }).enqueue ⟨.balance, 0⟩

/-- Open the balance (R92). -/
def Ev.openBalance (e : Ev) : Ev := e.modBalance fun b => { b with isOpen := true }

/-- The located mass (R92). -/
def State.locatedMass (s : State) : Nat :=
  (s.inv.pits.toList.map PitRec.mass).sum + (s.inv.bins.toList.map BinRec.mass).sum + s.dru.mass
    + (if s.btu.state = .planned then s.btu.cargo else 0)

/-- Received + Adjustments less the located mass and the outflows: 0 when the law of R92 holds. -/
def State.imbalance (s : State) : Int :=
  let b := s.inv.balance
  b.received + b.adjustments - s.locatedMass - b.shipped - b.rejected - b.dryingLoss

/-! ### After a change of a location (R76, R86, R94) -/

/-- The INV judges a bin after an event changed it from `old`: OVERFILL, the revision changes of R94, the
write-back, and its report to the CDM (R86, R94, R143, R147). `left` says that the event removed the bottom
layer, whatever number the layer now at the bottom has. DESIGN CHOICE: the INV's OVERFILL is logged before the CDM's
CONDITION_CHANGE, since R178 lets either block be first (log entry 36). -/
def Ev.settleBin (e : Ev) (i : BinIx) (old : BinRec) (left : Bool) : Ev :=
  let b := e.st.bin i
  let above := decide (b.mass > b.ceiling)
  let e := e.map (·.modBin i fun b => { b with overfill := above })
  let e := if above && !old.overfill then e.log .overfill (.location (i.val + 1)) ((b.mass : Int) - b.ceiling) else e
  let e := e.touchIf (above != old.overfill || b.untraced != old.untraced || left) (.bin i)
  let e := e.enqueue ⟨.bin, i⟩
  match old.layers.head?, b.layers.head? with
  | some _, none => e.binEmptied i
  | none, some _ => e.bottomChanged i
  | some _, some _ => if left then e.bottomChanged i else e
  | none, none => e

/-- The INV judges a pit after an event changed it from `old` (R83, R86, R94). -/
def Ev.settlePit (e : Ev) (i : PitIx) (old : PitRec) : Ev :=
  let b := e.st.pit i
  let above := decide (b.mass > b.capacity)
  let e := e.map (·.modPit i fun b => { b with overfill := above })
  let e := if above && !old.overfill then e.log .overfill (.location (i.val + 29)) ((b.mass : Int) - b.capacity) else e
  let e := e.touchIf (above != old.overfill || b.state != old.state) (.pit i)
  e.enqueue ⟨.pit, i⟩

/-! ### Release (R81, R90) -/

/-- The cause with which exhausted lists release their lots (R51). -/
def exhaustCause (toReject : Bool) : ReleaseCause := if toReject then .rejected else .transfer

/-- The HOLD notice body (R87). -/
def holdBody (i : BinIx) (level port cause : Nat) : List Byte := u8 (i.val + 1) ++ u8 level ++ u8 port ++ u8 cause

/-- A STRICT hold lifts when a release to REJECT leaves the bin with no layer (R90). -/
def Ev.liftAtEmpty (e : Ev) (i : BinIx) : Ev :=
  let b := e.st.bin i
  match b.hold with
  | some h =>
    if h.level = .strict ∧ b.layers = [] then
      let e := (e.map (·.modBin i fun b => { b with hold := none })).touch (.bin i)
      let e := e.offer allPorts .hold (holdBody i 0 0 2)
      e.log .holdLifted (.location (i.val + 1)) 1
    else e
  | none => e

/-- The INV releases a mass from the bottom of a bin (R81): the event and the parts released. DESIGN CHOICE: a
release that empties a bin under a STRICT hold logs HOLD_LIFTED before the CDM acts on the empty bin; two blocks
log, and R178 lets either be first (log entry 36). -/
def Ev.releaseBin (e : Ev) (i : BinIx) (mass : Nat) (toReject : Bool) : Ev × List Part :=
  let old := e.st.bin i
  if old.unverified then (e, [])
  else
    let d := drawLayers old.commodity mass old.layers
    if d.parts = [] then (e, [])
    else
      let e := e.map (·.modBin i fun b =>
        { b with layers := d.rest, commodity := if d.rest = [] then none else b.commodity })
      let e := e.release (d.exhausted.flatMap (·.lots)) (exhaustCause toReject)
      let e := if toReject then e.liftAtEmpty i else e
      (e.settleBin i old (!d.exhausted.isEmpty), d.parts)

/-- The INV releases a mass from a pit (R81, R83). -/
def Ev.releasePit (e : Ev) (i : PitIx) (mass : Nat) (toReject : Bool) : Ev × List Part :=
  let old := e.st.pit i
  if old.unverified || old.state != .loaded then (e, [])
  else
    let d := drawLayers old.commodity mass old.layers
    if d.parts = [] then (e, [])
    else
      let e := e.map (·.modPit i fun b =>
        match d.rest with
        | [] => { b with layer := none, state := .empty, commodity := none }
        | l :: _ => { b with layer := some l })
      let e := e.release (d.exhausted.flatMap (·.lots)) (exhaustCause toReject)
      (e.settlePit i old, d.parts)

/-! ### Filling (R79, R80) -/

/-- Parts join a lot list with a room, one after another: the list, the additions and the lots dropped. -/
def joinParts (room : Nat) : List Nat → List Part → List Nat × List Nat × List Nat
  | held, [] => (held, [], [])
  | held, p :: ps =>
    let (l, a, d) := joinLots room held p.lots
    let (l', a', d') := joinParts room l ps
    (l', a ++ a', d ++ d')

/-- A layer takes parts: mass, moisture, grade, lots and UNTRACED (R79, R80). A new layer comes with mass 0
and grade 0. -/
def Layer.join (l : Layer) (ps : List Part) (lots : List Nat) (dropped : Bool) : Layer :=
  { l with
    mass := l.mass + totalMass ps
    moisture := blend ((l.mass, l.moisture) :: ps.map fun p => (p.mass, p.moisture))
    grade := worstGrade (l.grade :: ps.map (·.grade))
    lots
    untraced := l.untraced || ps.any (·.untraced) || dropped }

/-- The layer number that receives the parts of an increment, and whether a new layer is opened or the
parts merge into the top layer (R79). -/
inductive FillTarget where
  | join (number : Nat)
  | openNew (number : Nat)
  | merge (number : Nat)
deriving DecidableEq, Repr

/-- Where an increment goes (R79). -/
def fillTarget (b : BinRec) (openLayer : Option Nat) : FillTarget :=
  let fresh :=
    match b.layers.getLast? with
    | some top => if b.layers.length < 12 then
        FillTarget.openNew (issueNumber 65535 (b.layers.map (·.number)) b.layerCtr) else .merge top.number
    | none => .openNew (issueNumber 65535 [] b.layerCtr)
  match openLayer with
  | some n => if (b.layers.map (·.number)).contains n then .join n else fresh
  | none => fresh

/-- The parts of an increment enter a bin for claim `n`'s transfer, without the settling that ends the
event's change (R79, R80). The opening of a layer and a merge into the top layer raise the revision (R94). -/
def Ev.fillCore (e : Ev) (i : BinIx) (n : Nat) (openLayer : Option Nat) (origin : Origin) (ps : List Part) : Ev :=
  let b := e.st.bin i
  let into (e : Ev) (number : Nat) (ls : List Layer) : Ev :=
    match ls.find? (·.number == number) with
    | none => e
    | some l =>
      let (lots, a, d) := joinParts 6 l.lots ps
      let l' := l.join ps lots (!d.isEmpty)
      let e := e.map (·.modBin i fun b =>
        { b with
          layers := ls.map fun x => if x.number = number then l' else x
          commodity := if b.layers = [] then ps.head?.map (·.commodity) else b.commodity })
      let e := e.map (·.modTransfer n fun t => { t with openLayer := some number })
      (e.add a).release d .dropped
  match fillTarget b openLayer with
  | .join number => into e number b.layers
  | .merge number => (into e number b.layers).touch (.bin i)
  | .openNew number =>
    let l : Layer := { number, mass := 0, moisture := 0, grade := 0, origin, fillTime := e.st.term, lots := [], untraced := false }
    let e := into e number (b.layers ++ [l])
    (e.map (·.modBin i fun b => { b with layerCtr := number })).touch (.bin i)

/-- The INV adds the parts of an increment to a bin (R79). -/
def Ev.fillBin (e : Ev) (i : BinIx) (n : Nat) (openLayer : Option Nat) (origin : Origin) (ps : List Part) : Ev :=
  let old := e.st.bin i
  (e.fillCore i n openLayer origin ps).settleBin i old false

/-- The INV takes an increment addressed to REJECT (R74). -/
def Ev.takeReject (e : Ev) (ps : List Part) : Ev :=
  e.modBalance fun b => { b with rejected := fitSigned64 (b.rejected + totalMass ps) }

/-- An increment of a self route: a release from below the open layer and an addition to it, in one event
(R82, R110). -/
def Ev.turnBin (e : Ev) (i : BinIx) (n : Nat) (openLayer : Option Nat) (mass : Nat) : Ev × List Part :=
  let old := e.st.bin i
  if old.unverified then (e, [])
  else
    let below := belowOpen openLayer old.layers
    let d := drawLayers old.commodity mass below
    if d.parts = [] then (e, [])
    else
      let ls := d.rest ++ old.layers.drop below.length
      let e := e.map (·.modBin i fun b =>
        { b with layers := ls, commodity := if ls = [] then none else b.commodity })
      let e := e.release (d.exhausted.flatMap (·.lots)) .transfer
      let e := e.fillCore i n openLayer .rotation d.parts
      (e.settleBin i old (!d.exhausted.isEmpty), d.parts)

/-! ### Pits and intake (R43, R46, R48) -/

/-- The INV makes a pit RECEIVING a ticket (R43). -/
def Ev.pitReceive (e : Ev) (i : PitIx) (ticket : Nat) : Ev :=
  (e.map (·.modPit i fun b => { b with state := .receiving ticket })).touch (.pit i)

/-- The INV returns a pit to EMPTY (R45, R46). -/
def Ev.pitEmpty (e : Ev) (i : PitIx) : Ev :=
  (e.map (·.modPit i fun b => { b with state := .empty })).touch (.pit i)

/-- The INV loads a pit with the net of a ticket (R48). -/
def Ev.pitLoad (e : Ev) (i : PitIx) (lot : Lot) : Ev :=
  let old := e.st.pit i
  let number := issueNumber 65535 [] old.layerCtr
  let l : Layer :=
    { number, mass := lot.net, moisture := lot.moisture, grade := lot.grade, origin := .intake,
      fillTime := lot.intakeTime, lots := [lot.number], untraced := false }
  let e := e.map (·.modPit i fun b =>
    { b with state := .loaded, layer := some l, layerCtr := number, commodity := some lot.commodity })
  let e := e.settlePit i old
  e.modBalance fun b => { b with received := fitSigned64 (b.received + lot.net) }

end Sys2Proof.Machine
end

