-- ==== Sys2Proof/Machine/Operands.lean ====
section
/-! DEFINITION. The operands of requests: the request table (R5) and the form of request bodies (R3). -/
namespace Sys2Proof.Machine

/-- The requests of the request table (R5). -/
inductive ReqKind where
  | status | readRecord | watch | cancelWatch | readEvents
  | openTicket | captureGross | enterSample | assignPit | reportDumped | captureTare | voidTicket | zeroBridge
  | placeHold | releaseHold | setCeiling | lockCeiling | unlockCeiling | freezeCeilings | adjustMass
  | acceptBalance
  | claimRoute | startTransfer | reportMass | releaseClaim | reportSegmentMotion | clearSegmentFault
  | closeFeed | reportBatchOut | startSurvey | abortSurvey
  | berthBarge | amendPlan | reportStage | closeBarge
  | setClock | restart | writeConfigurationArea | readConfigurationArea
deriving DecidableEq, Repr

/-- The kind byte of a request (R5). -/
def ReqKind.code : ReqKind → Byte
  | .status => 0x01 | .readRecord => 0x02 | .watch => 0x03 | .cancelWatch => 0x04 | .readEvents => 0x05
  | .openTicket => 0x10 | .captureGross => 0x11 | .enterSample => 0x12 | .assignPit => 0x13
  | .reportDumped => 0x14 | .captureTare => 0x15 | .voidTicket => 0x16 | .zeroBridge => 0x17
  | .placeHold => 0x20 | .releaseHold => 0x21 | .setCeiling => 0x22 | .lockCeiling => 0x23
  | .unlockCeiling => 0x24 | .freezeCeilings => 0x25 | .adjustMass => 0x26 | .acceptBalance => 0x27
  | .claimRoute => 0x30 | .startTransfer => 0x31 | .reportMass => 0x32 | .releaseClaim => 0x33
  | .reportSegmentMotion => 0x34 | .clearSegmentFault => 0x35
  | .closeFeed => 0x40 | .reportBatchOut => 0x41 | .startSurvey => 0x48 | .abortSurvey => 0x49
  | .berthBarge => 0x50 | .amendPlan => 0x51 | .reportStage => 0x52 | .closeBarge => 0x53
  | .setClock => 0x58 | .restart => 0x59 | .writeConfigurationArea => 0x5A | .readConfigurationArea => 0x5B

/-- The requests of the request table, in its order. -/
def ReqKind.all : List ReqKind :=
  [.status, .readRecord, .watch, .cancelWatch, .readEvents, .openTicket, .captureGross, .enterSample,
   .assignPit, .reportDumped, .captureTare, .voidTicket, .zeroBridge, .placeHold, .releaseHold, .setCeiling,
   .lockCeiling, .unlockCeiling, .freezeCeilings, .adjustMass, .acceptBalance, .claimRoute, .startTransfer,
   .reportMass, .releaseClaim, .reportSegmentMotion, .clearSegmentFault, .closeFeed, .reportBatchOut,
   .startSurvey, .abortSurvey, .berthBarge, .amendPlan, .reportStage, .closeBarge, .setClock, .restart,
   .writeConfigurationArea, .readConfigurationArea]

/-- Whether a kind byte is in the request table (R5). -/
def isRequestKind (k : Byte) : Bool := ReqKind.all.any (fun r => r.code == k)

/-- The stations the request table admits for a request (R5). -/
def ReqKind.stations : ReqKind → List Port
  | .status | .readRecord | .watch | .cancelWatch | .readEvents => allPorts
  | .openTicket | .captureGross | .enterSample | .assignPit | .reportDumped | .captureTare | .voidTicket
  | .zeroBridge | .placeHold | .releaseHold => [.scale, .office]
  | .setCeiling => [.yard, .office]
  | .lockCeiling | .unlockCeiling | .freezeCeilings | .adjustMass | .acceptBalance => [.office]
  | .claimRoute | .startTransfer | .reportMass | .releaseClaim => [.yard, .dryer, .dock, .office]
  | .reportSegmentMotion => [.yard]
  | .clearSegmentFault => [.office]
  | .closeFeed | .reportBatchOut => [.dryer, .office]
  | .startSurvey | .abortSurvey => [.yard, .office]
  | .berthBarge | .amendPlan | .reportStage | .closeBarge => [.dock, .office]
  | .setClock | .restart | .writeConfigurationArea | .readConfigurationArea => [.office]

/-- Whether a readiness admits a request (R175). -/
def ReqKind.admittedIn (k : ReqKind) : Phase → Bool
  | .ready => true
  | .loadConfig | .loadMirror =>
    [ReqKind.status, .readRecord, .readEvents, .readConfigurationArea, .writeConfigurationArea,
      .restart].contains k
  | .configFault =>
    [ReqKind.status, .readConfigurationArea, .writeConfigurationArea, .restart].contains k
  | .off | .resetHeld | .restarting => false

/-! ### Body forms (R3) -/

/-- Unsigned fields of the given widths at the front of a body, and the bytes after them. -/
def takeFields : List Nat → List Byte → Option (List Nat × List Byte)
  | [], body => some ([], body)
  | w :: ws, body =>
    if body.length < w then none
    else match takeFields ws (body.drop w) with
      | some (xs, rest) => some (beVal (body.take w) :: xs, rest)
      | none => none

/-- A body of exactly these unsigned fields; absent when the body is shorter or longer (R3). -/
def fields (ws : List Nat) (body : List Byte) : Option (List Nat) :=
  match takeFields ws body with
  | some (xs, []) => some xs
  | _ => none

/-- Whether a character may stand in a text field (R3). -/
def textChar (b : Byte) : Bool := decide (0x20 ≤ b.toNat ∧ b.toNat ≤ 0x7E)

/-- A text field at the front of a body, and the bytes after it; absent when its form is wrong (R3). -/
def takeText : List Byte → Option (Text × List Byte)
  | [] => none
  | t :: rest =>
    let n := t.toNat % 64
    if t.toNat / 64 = 3 ∧ n ≤ rest.length ∧ (rest.take n).all textChar then
      some (rest.take n, rest.drop n)
    else none

/-- The record of a record kind code and an index; absent when either is outside its range (R11). -/
def recOf (kind index : Nat) : Option RecRef :=
  match kind with
  | 1 => (binOf index).map .bin
  | 2 => (pitOf index).map .pit
  | 3 => if 1 ≤ index ∧ index ≤ 65535 then some (.ticket index) else none
  | 4 => if 1 ≤ index ∧ index ≤ 65535 then some (.lot index) else none
  | 5 => if 1 ≤ index ∧ index ≤ 255 then some (.claim index) else none
  | 6 => if index = 0 then some .batchList else none
  | 7 => if index = 0 then some .berth else none
  | 8 => (segOf index).map .segment
  | _ => none

/-- Whether an expected revision passes against the current one (R12). -/
def revPasses (expected current : Nat) : Bool := expected == 0 || expected == current

end Sys2Proof.Machine
end

