-- ==== Sys2Proof/Machine/Slots.lean ====
section
/-! DEFINITION. The request slot: the arrival of a valid frame (R4), the checks of the SLP (R5) and the answer
frame (R6). -/
namespace Sys2Proof.Machine

/-- Frames, samples, poll replies and timer expiries are taken: from step 1 of start-up on, and not while
a RESTART writes the queue out (R18, R175). -/
def State.live (s : State) : Bool :=
  match s.phase with
  | .loadConfig | .loadMirror | .configFault | .ready => true
  | .off | .resetHeld | .restarting => false

/-- The receiver hears the line: it is off while the SLP transmits (R7), and after a port reset until the
line is idle again (R17). -/
def SlpPort.listens (q : SlpPort) : Bool := q.tx.isNone && q.receiver != .inBreak

/-- A frame sent to port `p` now reaches its receiver. -/
def State.hears (s : State) (p : Port) : Bool := s.live && (s.port p).listens

/-- A valid frame restarts the silence timer and makes a SILENT port HEARD; the receiver is HUNTING again
(R2, R4). -/
def State.hear (s : State) (p : Port) : State :=
  s.modPort p fun q => { q with timer := some s.ms, silent := false, receiver := .hunting }

/-- The frame is discarded and COLLIDED is set (R4). -/
def State.collide (s : State) (p : Port) : State :=
  s.modPort p fun q => { q with flags := { q.flags with collided := true } }

/-- The frame enters the slot as the request in progress (R4). -/
def State.hold (s : State) (p : Port) (seq kind : Byte) : State :=
  s.modPort p fun q => { q with slot := .acting seq kind }

/-- The SLP answers the request its slot holds. -/
def State.reply (s : State) (p : Port) (code : Code) (body : List Byte) : State :=
  s.modPort p (SlpPort.reply code body)

/-- The result body of an answer the SLP gives in place of a request's owner: the report that every answer to the
kind carries, whatever its code (R28, R148), and else none (log entry 25). -/
def State.refusalBody (s : State) : ReqKind → List Byte
  | .zeroBridge => s.bridgeReport
  | .startSurvey | .abortSurvey => s.surveyReport
  | _ => []

/-- A valid request frame at port `p` up to the hand-over to its owning block (R4, R5): the state, and
whether the owning block now acts on the request. -/
def State.arrive (s : State) (k : ReqKind) (p : Port) (seq : Byte) : State × Bool :=
  if !s.hears p then (s, false)
  else
    let s := s.hear p
    match (s.port p).slot with
    | .empty =>
      let s := s.hold p seq k.code
      if !k.stations.contains p then (s.reply p .role (s.refusalBody k), false)
      else if !k.admittedIn s.phase then (s.reply p .notReady (s.refusalBody k), false)
      else (s, true)
    | _ => (s.collide p, false)

/-- A request whose owning block acts on it in one event. -/
def State.request (s : State) (k : ReqKind) (p : Port) (seq : Byte) (act : Ev → Ev) : State :=
  let (s, ok) := s.arrive k p seq
  if ok then s.event act else s

/-- The frame of an answer, with the port flags as they stand (R6). -/
def Answer.frame (a : Answer) (flags : PortFlags) : List Byte :=
  Machine.frame a.seq (a.kind + 0x80) (a.code.byte :: BitVec.ofNat 8 flags.byte :: a.body)

/-- The frame of a notice: sequence 0 (section 1.6). -/
def Notice.frame (n : Notice) : List Byte := Machine.frame 0 n.kind.byte n.body

end Sys2Proof.Machine
end

