-- ==== Sys2Proof/Machine/Drying.lean ====
section
/-! DEFINITION. The Drying Unit: feeding, discharge, CLOSE FEED and REPORT BATCH OUT (chapter 7). -/
namespace Sys2Proof.Machine

/-- The outcome of a step of this machine. -/
abbrev Result := Host.Outcome State Fault Refusal

/-- Change the batch list record. -/
def Ev.modDru (e : Ev) (f : Dru → Dru) : Ev := e.map fun s => { s with dru := f s.dru }

/-- A batch just created (R124, R126). -/
def Batch.created (number fillTime : Nat) : Batch :=
  { number, state := .filling, inMass := 0, inSum := 0, grade := 0, lots := [], untraced := false, outMass := 0,
    outMoisture := 0, remaining := 0, underdried := false, fillTime, closeTime := 0, outTime := 0 }

/-- The FILLING batch takes parts: mass, moisture sum, grade, lots and UNTRACED (R126). -/
def Batch.feed (b : Batch) (ps : List Part) (lots : List Nat) (dropped : Bool) : Batch :=
  { b with
    inMass := b.inMass + totalMass ps
    inSum := b.inSum + partsSum (ps.map fun p => (p.mass, p.moisture))
    grade := worstGrade (b.grade :: ps.map (·.grade))
    lots
    untraced := b.untraced || ps.any (·.untraced) || dropped }

/-- The DRU adds the parts of an increment to the FILLING batch, creating one when none exists (R126). -/
def Ev.feedDryer (e : Ev) (ps : List Part) : Ev :=
  let d := e.st.dru
  let number := issueNumber 65535 (d.batches.map (·.number)) d.counter
  let hasFilling := d.batches.any fun b => b.state == .filling
  let bs := if hasFilling then d.batches else d.batches ++ [Batch.created number e.st.term]
  match bs.find? (·.state == .filling) with
  | none => e
  | some b =>
    let (lots, a, x) := joinParts 6 b.lots ps
    let b' := b.feed ps lots (!x.isEmpty)
    let e := e.modDru fun d =>
      { d with
        batches := bs.map fun y => if y.state == .filling then b' else y
        counter := if hasFilling then d.counter else number
        commodity := if d.batches = [] then ps.head?.map (·.commodity) else d.commodity }
    let e := (e.add a).release x .dropped
    (e.touchIf (!hasFilling || b'.untraced != b.untraced) .batchList).enqueue ⟨.batchList, 0⟩

/-- What taking a mass from the oldest DRIED batches gives (R132). -/
structure DrawnBatches where
  parts : List Part
  rest : List Batch
  exhausted : List Batch
deriving DecidableEq, Repr

/-- A part of a DRIED batch (R132). -/
def Batch.part (b : Batch) (mass : Nat) (commodity : Option Nat) : Part :=
  ⟨mass, b.outMoisture, b.grade, b.lots, b.untraced, commodity.getD 0⟩

/-- Take a mass from the DRIED batches, oldest first (R132). -/
def drawBatches (commodity : Option Nat) : Nat → List Batch → DrawnBatches
  | _, [] => ⟨[], [], []⟩
  | m, b :: bs =>
    if m = 0 then ⟨[], b :: bs, []⟩
    else if b.state ≠ .dried then
      let d := drawBatches commodity m bs
      ⟨d.parts, b :: d.rest, d.exhausted⟩
    else if m < b.remaining then
      ⟨[b.part m commodity], { b with remaining := b.remaining - m } :: bs, []⟩
    else
      let d := drawBatches commodity (m - b.remaining) bs
      ⟨b.part b.remaining commodity :: d.parts, d.rest, b :: d.exhausted⟩

/-- The DRU releases a mass from the DRYER (R132). -/
def Ev.releaseDryer (e : Ev) (mass : Nat) (toReject : Bool) : Ev × List Part :=
  let d := drawBatches e.st.dru.commodity mass e.st.dru.batches
  if d.parts = [] then (e, [])
  else
    let e := e.modDru fun x =>
      { x with batches := d.rest, commodity := if d.rest = [] then none else x.commodity }
    let e := e.release (d.exhausted.flatMap (·.lots)) (exhaustCause toReject)
    ((e.touchIf (!d.exhausted.isEmpty) .batchList).enqueue ⟨.batchList, 0⟩, d.parts)

/-- The revision and header of the batch list, with no batch entries (R125). -/
def State.batchAnswer (s : State) : List Byte :=
  u16 s.dru.rev ++ s.dru.header s.rc.dryerIn s.rc.dryerOut 0 0

/-- The FILLING batch becomes DRYING, or is removed when its mass is zero (R128, R133). -/
def Dru.closeFilling (d : Dru) (now : Nat) : Dru :=
  let bs := d.batches.filterMap fun b =>
    if b.state == .filling then
      if b.inMass = 0 then none else some { b with state := .drying, closeTime := now }
    else some b
  { d with batches := bs, commodity := if bs = [] then none else d.commodity }

/-- CLOSE FEED (R128). -/
def Ev.closeFeed (p : Port) (body : List Byte) (e : Ev) : Ev :=
  match fields [2] body with
  | some [rev] =>
    if !revPasses rev e.st.dru.rev then e.reply p .stale (u16 e.st.dru.rev)
    else if e.st.rc.dryerIn.isSome then e.reply p .busy []
    else if !(e.st.dru.batches.any fun b => b.state == .filling) then e.reply p .badState []
    else
      let e := ((e.modDru (·.closeFilling e.st.term)).touch .batchList).commit
      e.reply p .ok e.st.batchAnswer
  | _ => e.reply p .range []

/-- A batch is reported out (R129). -/
def Batch.dry (b : Batch) (mass moisture : Nat) (underdried : Bool) (now : Nat) : Batch :=
  { b with state := .dried, outMass := mass, outMoisture := moisture, remaining := mass, underdried, outTime := now }

/-- Change the first batch of a list that is DRYING. -/
def dryFirst (f : Batch → Batch) : List Batch → List Batch
  | [] => []
  | b :: bs => if b.state == .drying then f b :: bs else b :: dryFirst f bs

/-- A discrepancy is raised (R130). -/
def Ev.discrepancy (e : Ev) (b : Batch) (mass expected tolerance : Nat) (difference : Int) : Ev :=
  let e := e.log .dryerDiscrepancy (.location 31) difference
  e.offer [.dryer, .office] .dryerDiscrepancy
    (u16 b.number ++ u32 b.inMass ++ u32 mass ++ u32 expected ++ u32 tolerance ++ s32 difference)

/-- The event of a passing REPORT BATCH OUT on the oldest DRYING batch (R129 to R131). -/
def Ev.batchOut (e : Ev) (p : Port) (b : Batch) (mass moisture : Nat) : Ev :=
  let s := e.st
  let expected := expectedOut b.inMass b.inSum moisture
  let tolerance := dryingTolerance b.inMass s.berthCfg.tolerance
  let difference : Int := (mass : Int) - expected
  let discrepant := decide (difference.natAbs > tolerance)
  let c := s.dru.commodity.getD 8
  let underdried := !(s.isConfigured c && decide (moisture ≤ (s.commodity c).safeMoisture))
  let e := if discrepant then e.discrepancy b mass expected tolerance difference else e
  let e := e.modBalance fun x => { x with dryingLoss := fitSigned64 (x.dryingLoss + ((b.inMass : Int) - mass)) }
  let e := e.modDru fun d => { d with batches := dryFirst (·.dry mass moisture underdried s.term) d.batches }
  let e := e.touch .batchList
  let e := (e.judgeWhere fun _ t => t.source == .dryer).commit
  e.reply p .ok (e.st.batchAnswer ++ u16 b.number ++ u32 expected ++ u32 tolerance ++ s32 difference
    ++ u8 (bit 0 discrepant))

/-- REPORT BATCH OUT (R129). -/
def Ev.reportBatchOut (p : Port) (body : List Byte) (e : Ev) : Ev :=
  match fields [2, 4, 2] body with
  | some [rev, mass, moisture] =>
    if !revPasses rev e.st.dru.rev then e.reply p .stale (u16 e.st.dru.rev)
    else match e.st.dru.batches.find? (·.state == .drying) with
      | none => e.reply p .badState []
      | some b =>
        if mass = 0 ∨ mass > b.inMass then e.reply p .range []
        else e.batchOut p b mass (min moisture 350)
  | _ => e.reply p .range []

/-- The meaning of CLOSE FEED (R5, R128). -/
def execCloseFeed (p : Port) (seq : Byte) (body : List Byte) (s : State) : Result :=
  .next (s.request .closeFeed p seq (Ev.closeFeed p body))

/-- The meaning of REPORT BATCH OUT (R5, R129). -/
def execReportBatchOut (p : Port) (seq : Byte) (body : List Byte) (s : State) : Result :=
  .next (s.request .reportBatchOut p seq (Ev.reportBatchOut p body))

end Sys2Proof.Machine
end

