-- ==== Sys2Proof/Machine/Barge.lean ====
section
/-! DEFINITION. The Berth Unit: the stage, the cargo ceiling, the plan, loading and CLOSE BARGE (chapter 9). -/
namespace Sys2Proof.Machine

/-- Change the berth record. -/
def Ev.modBtu (e : Ev) (f : Btu → Btu) : Ev := e.map fun s => { s with btu := f s.btu }

/-- The plan as (target, loaded) in plan order. -/
def Btu.plan (b : Btu) : List (Nat × Nat) := b.holds.map fun h => (h.target, h.loaded)

/-- The sum of the targets. -/
def Btu.targets (b : Btu) : Nat := (b.holds.map (·.target)).sum

/-- The barge holds with new targets. -/
def Btu.retargeted (b : Btu) (ts : List Nat) : List BargeHold :=
  List.zipWith (fun h t => { h with target := t }) b.holds ts

/-- The cargo ceiling of the berthed barge at a stage (R64). -/
def State.ceilingAt (s : State) (hullMax light tpc stage : Nat) : Nat :=
  cargoCeiling s.berthCfg.datum s.berthCfg.clearance hullMax light tpc stage

/-- The revision and header of the berth, with no barge hold entries (R156). -/
def State.berthAnswer (s : State) : List Byte := u16 s.btu.rev ++ s.btu.header s.rc.berthIn 1 0

/-- The TARGETS_RESCALED notice body (R159). -/
def rescaleBody (ceiling cargo : Nat) (old new : List Nat) : List Byte :=
  u32 ceiling ++ u32 cargo ++ u8 old.length ++ (List.zipWith (fun x y => u32 x ++ u32 y) old new).flatten

/-- Steps 1 to 3 of R159: the rescale, its notice, and the CEILING_CUT trip. -/
def Ev.fitPlan (e : Ev) : Ev :=
  let b := e.st.btu
  let ts := if b.targets > b.ceiling then rescale b.ceiling b.plan else b.holds.map (·.target)
  let e :=
    if ts = b.holds.map (·.target) then e
    else
      let e := (e.modBtu fun b => { b with holds := b.retargeted ts }).touch .berth
      e.offer [.dock, .office] .targetsRescaled (rescaleBody b.ceiling b.cargo (b.holds.map (·.target)) ts)
  if b.cargo ≥ b.ceiling then e.tripWhere (fun t => t.dest == .berth) .ceilingCut else e

/-- The BTU acts on its ceiling and targets (R159). -/
def Ev.actOnPlan (e : Ev) : Ev := e.fitPlan.judgeWhere fun _ t => t.dest == .berth

/-! ### Loading (R163, R164) -/

/-- A barge hold takes parts (R163). -/
def BargeHold.load (h : BargeHold) (ps : List Part) (lots : List Nat) (dropped : Bool) : BargeHold :=
  { h with
    loaded := h.loaded + totalMass ps
    sum := h.sum + partsSum (ps.map fun p => (p.mass, p.moisture))
    grade := some (worstGrade (h.grade.toList ++ ps.map (·.grade)))
    lots
    untraced := h.untraced || ps.any (·.untraced) || dropped }

/-- A target that was passed is brought up to the loaded mass (R164). -/
def BargeHold.raised (h : BargeHold) : BargeHold := { h with target := max h.target h.loaded }

/-- The BTU takes the parts of an increment into barge hold `k`, judges it loaded and acts on the plan. The
RC's own judgement follows at step 6 of R107 (R163, R164; log entry 28). -/
def Ev.loadBarge (e : Ev) (k : Nat) (ps : List Part) : Ev :=
  match e.st.btu.holds[k - 1]? with
  | none => e
  | some h =>
    let (lots, a, d) := joinParts 16 h.lots ps
    let h' := (h.load ps lots (!d.isEmpty)).raised
    let e := e.modBtu fun b => { b with holds := b.holds.set (k - 1) h' }
    let e := (e.add a).release d .dropped
    let e := e.touchIf (h'.target != h.target || (h'.finished && !h.finished) || h'.untraced != h.untraced) .berth
    (e.enqueue ⟨.berth, 0⟩).fitPlan

/-! ### REPORT STAGE and staleness (R157, R158) -/

/-- Clamp a reported stage to 0 to 3000 (R157). -/
def clampStage (i : Int) : Nat := (max 0 (min 3000 i)).toNat

/-- The event of a REPORT STAGE taken (R157). DESIGN CHOICE: the record has one stage, so a CLOSED_MANIFEST berth
shows the stage last reported, not that of the close (R166; log entry 46). -/
def Ev.takeStage (e : Ev) (stage : Nat) : Ev :=
  let old := e.st.btu
  let now := e.st.ms
  let time := e.st.term
  let ceiling := if old.state = .planned then e.st.ceilingAt old.hullMax old.lightDraft old.tpc stage else old.ceiling
  let e := e.modBtu fun b =>
    { b with stage := some stage, stageTime := time, fresh := true, timer := some now, ceiling }
  let e := e.touchIf (old.stage != some stage || !old.fresh || old.ceiling != ceiling) .berth
  let e := if old.state = .planned then e.actOnPlan else e
  e.enqueue ⟨.berth, 0⟩

/-- REPORT STAGE (R157). -/
def Ev.reportStage (p : Port) (body : List Byte) (e : Ev) : Ev :=
  match fields [2, 2] body with
  | some [rev, _] =>
    if !revPasses rev e.st.btu.rev then e.reply p .stale (u16 e.st.btu.rev)
    else
      let e := (e.takeStage (clampStage (beSigned (body.drop 2)))).commit
      e.reply p .ok e.st.berthAnswer
  | _ => e.reply p .range []

/-- The span after which the stage is stale: more than 1,800 s (R158, R177). -/
def staleSpan : Nat := 1800001

/-- The claim whose transfer into BERTH is RUNNING, 0 when there is none (R158). -/
def State.loadingClaim (s : State) : Nat :=
  match s.rc.claims.find? fun c => c.runs fun t => t.dest == .berth with
  | some c => c.number
  | none => 0

/-- The stage goes STALE (R158). -/
def Ev.goStale (e : Ev) : Ev :=
  let planned := e.st.btu.state == .planned
  let asked := if planned then e.st.loadingClaim else 0
  let e := (e.modBtu fun b => { b with fresh := false, timer := none }).touch .berth
  let e := if planned then e.tripWhere (fun t => t.dest == .berth) .stageStale else e
  e.offer [.dock, .office] .stageStale
    (u16 (e.st.btu.stage.getD 0) ++ u32 e.st.btu.stageTime ++ u8 e.st.btu.state.code ++ u8 asked)

/-! ### Planning (R160, R161) -/

/-- The body of BERTH BARGE. -/
structure BargePlan where
  rev : Nat
  id : Text
  commodity : Nat
  maxMoisture : Nat
  grade : Nat
  hullMax : Nat
  light : Nat
  tpc : Nat
  targets : List Nat
deriving DecidableEq, Repr

/-- The body form of BERTH BARGE (R3, R160). -/
def parseBarge (body : List Byte) : Option BargePlan :=
  match takeFields [2] body with
  | some ([rev], rest) =>
    match takeText rest with
    | some (id, rest) =>
      match takeFields [1, 2, 1, 2, 2, 4, 1] rest with
      | some ([c, m, g, hull, light, tpc, n], rest) =>
        match fields (List.replicate n 4) rest with
        | some targets => some ⟨rev, id, c, m, g, hull, light, tpc, targets⟩
        | none => none
      | _ => none
    | none => none
  | _ => none

/-- Whether the figures of a plan lie in their ranges (R154, R160). -/
def State.planInRange (s : State) (b : BargePlan) : Bool :=
  s.isConfigured b.commodity && decide (b.maxMoisture ≤ 350) && decide (1 ≤ b.grade ∧ b.grade ≤ 5)
    && decide (50 ≤ b.hullMax ∧ b.hullMax ≤ 600) && decide (b.light ≤ 200)
    && decide (1000 ≤ b.tpc ∧ b.tpc ≤ 50000) && decide (2 ≤ b.targets.length ∧ b.targets.length ≤ 6)

/-- The record a passing BERTH BARGE sets up (R160). -/
def Btu.berthed (b : Btu) (x : BargePlan) (ceiling now : Nat) : Btu :=
  { b with
    state := .planned, bargeId := x.id, commodity := x.commodity, maxMoisture := x.maxMoisture,
    worstGrade := x.grade, hullMax := x.hullMax, lightDraft := x.light, tpc := x.tpc,
    holds := x.targets.map fun t => { target := t, loaded := 0, sum := 0, grade := none, lots := [], untraced := false },
    ceiling, berthTime := now, closeTime := 0 }

/-- BERTH BARGE (R160). -/
def Ev.berthBarge (p : Port) (body : List Byte) (e : Ev) : Ev :=
  match parseBarge body with
  | none => e.reply p .range []
  | some x =>
    let b := e.st.btu
    if !revPasses x.rev b.rev then e.reply p .stale (u16 b.rev)
    else if b.state = .planned then e.reply p .busy []
    else match b.fresh, b.stage with
      | true, some stage =>
        if !e.st.planInRange x then e.reply p .range []
        else
          let ceiling := e.st.ceilingAt x.hullMax x.light x.tpc stage
          if x.targets.sum > ceiling then e.reply p .range []
          else
            let now := e.st.term
            let e := ((e.modBtu fun b => b.berthed x ceiling now).touch .berth).commit
            e.reply p .ok e.st.berthAnswer
      | _, _ => e.reply p .badState []

/-- The body form of AMEND PLAN: the expected revision and the targets (R3, R161). -/
def parseAmend (body : List Byte) : Option (Nat × List Nat) :=
  match takeFields [2, 1] body with
  | some ([rev, n], rest) => (fields (List.replicate n 4) rest).map fun ts => (rev, ts)
  | _ => none

/-- The event of a passing AMEND PLAN (R161). -/
def Ev.takeTargets (e : Ev) (ts : List Nat) : Ev :=
  if ts = e.st.btu.holds.map (·.target) then e
  else
    let e := (e.modBtu fun b => { b with holds := b.retargeted ts }).touch .berth
    e.judgeWhere fun _ t => t.dest == .berth

/-- AMEND PLAN (R161). -/
def Ev.amendPlan (p : Port) (body : List Byte) (e : Ev) : Ev :=
  match parseAmend body with
  | none => e.reply p .range []
  | some (rev, ts) =>
    let b := e.st.btu
    if !revPasses rev b.rev then e.reply p .stale (u16 b.rev)
    else if b.state ≠ .planned then e.reply p .badState []
    else if ts.length ≠ b.holds.length then e.reply p .range []
    else if (List.zipWith (fun t h => decide (t < h.loaded)) ts b.holds).any id || decide (ts.sum > b.ceiling) then
      e.reply p .range []
    else
      let e := (e.takeTargets ts).commit
      e.reply p .ok e.st.berthAnswer

/-- CLOSE BARGE (R165). -/
def Ev.closeBarge (p : Port) (body : List Byte) (e : Ev) : Ev :=
  match fields [2] body with
  | some [rev] =>
    let b := e.st.btu
    if !revPasses rev b.rev then e.reply p .stale (u16 b.rev)
    else if b.state ≠ .planned then e.reply p .badState []
    else if e.st.rc.berthIn.isSome then e.reply p .busy []
    else
      let now := e.st.term
      let e := e.modBalance fun x => { x with shipped := fitSigned64 (x.shipped + b.cargo) }
      let e := (e.release (b.holds.flatMap (·.lots)) .shipped).applyChangeSet
      let e := ((e.modBtu fun b => { b with state := .closedManifest, closeTime := now }).touch .berth).commit
      e.reply p .ok e.st.berthAnswer
  | _ => e.reply p .range []

/-! ### Meanings -/

/-- The meaning of BERTH BARGE (R5, R160). -/
def execBerthBarge (p : Port) (seq : Byte) (body : List Byte) (s : State) : Result :=
  .next (s.request .berthBarge p seq (Ev.berthBarge p body))

/-- The meaning of AMEND PLAN (R5, R161). -/
def execAmendPlan (p : Port) (seq : Byte) (body : List Byte) (s : State) : Result :=
  .next (s.request .amendPlan p seq (Ev.amendPlan p body))

/-- The meaning of REPORT STAGE (R5, R157). -/
def execReportStage (p : Port) (seq : Byte) (body : List Byte) (s : State) : Result :=
  .next (s.request .reportStage p seq (Ev.reportStage p body))

/-- The meaning of CLOSE BARGE (R5, R165). -/
def execCloseBarge (p : Port) (seq : Byte) (body : List Byte) (s : State) : Result :=
  .next (s.request .closeBarge p seq (Ev.closeBarge p body))

/-- The meaning of STAGE STALE: the staleness timer of a FRESH stage expires (R158). -/
def execStageStale (s : State) : Result :=
  match s.live, s.btu.fresh, s.btu.timer with
  | true, true, some t => .next ((s.advanceTo (t + staleSpan)).event Ev.goStale)
  | _, _, _ => .next s

end Sys2Proof.Machine
end

