-- ==== Sys2Proof/Machine/Transfers.lean ====
section
/-! DEFINITION. The Route Controller's requests: claims, START TRANSFER, mass reports, drains, releases, and
segment motion and faults (chapter 6). -/
namespace Sys2Proof.Machine

/-! ### CLAIM ROUTE (R100) -/

/-- The claim that holds a segment. -/
def State.holderOf (s : State) (i : SegIx) : Option Nat :=
  match (s.seg i).state with | .held n => some n | _ => none

/-- The CONFLICT body: the first HELD segment of a route, its claim and the claim's holder (R100). -/
def State.conflictBody (s : State) (r : Route) : List Byte :=
  match r.segments.find? fun i => (s.holderOf i).isSome with
  | some i =>
    let n := (s.holderOf i).getD 0
    u8 (i.val + 1) ++ u8 n ++ u8 (match s.claim n with | some c => portNo c.holder | none => 0)
  | none => []

/-- The event of a passing CLAIM ROUTE (R100). -/
def Ev.takeRoute (e : Ev) (p : Port) (r : Route) : Ev :=
  let n := issueNumber 255 (e.st.rc.claims.map (·.number)) e.st.rc.claimCtr
  let c : Claim := { number := n, holder := p, route := r.number, state := .claimed, rev := 1 }
  let e := e.map fun s => { s with rc := { s.rc with claims := s.rc.claims ++ [c], claimCtr := n } }
  let e := r.segments.foldl (fun e i => e.changeSeg i fun x => { x with state := .held n }) e
  e.reply p .ok (e.st.claimBodyOf n)

/-- CLAIM ROUTE (R100). -/
def Ev.claimRoute (p : Port) (body : List Byte) (e : Ev) : Ev :=
  match fields [1] body with
  | some [n] =>
    match (if 1 ≤ n ∧ n ≤ 40 then e.st.route n else none) with
    | none => e.reply p .range []
    | some r =>
      if !r.stations.contains p then e.reply p .role []
      else if e.st.rc.claims.length ≥ 8 then e.reply p .full []
      else if r.segments.any fun i => (e.st.seg i).state == .faulted then e.reply p .faulted []
      else if r.segments.any fun i => (e.st.holderOf i).isSome then e.reply p .conflict (e.st.conflictBody r)
      else e.takeRoute p r
  | _ => e.reply p .range []

/-! ### START TRANSFER (R102 to R105) -/

/-- Whether a location is a pit or a bin flagged UNVERIFIED (R102). -/
def State.isUnverified (s : State) : Loc → Bool
  | .bin i => (s.bin i).unverified
  | .pit i => (s.pit i).unverified
  | _ => false

/-- Whether a location is a bin under a quality hold. -/
def State.isHeld (s : State) : Loc → Bool
  | .bin i => (s.bin i).hold.isSome
  | _ => false

/-- Whether a location is a CRITICAL bin. -/
def State.isCritical (s : State) : Loc → Bool
  | .bin i => (s.bin i).level == .critical
  | _ => false

/-- Admission: the code of the first line that fails (R103). -/
def State.admission (s : State) (route : Nat) (t : Transfer) : Option Code :=
  match (s.units t.source).head? with
  | none => some .noRoom
  | some u =>
    if (s.isHeld t.source && t.dest != .reject) || s.isHeld t.dest then some .held
    else if s.isCritical t.dest && !t.isSelf then some .hot
    else if (s.commodityOf t.dest).isSome && s.commodityOf t.dest != s.commodityOf t.source then some .commodity
    else if s.isStorage t.dest && !s.storable (s.commodityOf t.source) u then some .wet
    else if t.dest == .berth && decide (u.grade > s.btu.worstGrade) then some .grade
    else if (s.inboundOf t.dest).isSome || (s.outboundOf t.source).isSome then some .busy
    else if t.dest == .dryer && decide (s.dru.batches.length ≥ 6)
        && !(s.dru.batches.any fun b => b.state == .filling) then some .full
    else if t.dest == .berth && !s.btu.fresh then some .noRoom
    else if s.atLimit route t then some .noRoom
    else none

/-- Mass of a pit or a bin. -/
def State.massOf (s : State) : Loc → Nat
  | .bin i => (s.bin i).mass
  | .pit i => (s.pit i).mass
  | _ => 0

/-- The transfer record a START attaches (R105). -/
def State.newTransfer (s : State) (r : Route) (number requested hold : Nat) : Transfer :=
  { number, source := r.source, dest := r.dest, bargeHold := hold,
    requested := if requested = 0 then none else some requested, reported := 0, delivered := 0, lots := [],
    shortfall := false, overrun := false, overfill := false, untraced := false, cause := none,
    massAtStart := s.massOf r.source, openLayer := none, startTime := s.term, tripTime := 0, closeTime := 0 }

/-- The numbers of open transfers. -/
def State.openTransfers (s : State) : List Nat :=
  s.rc.claims.filterMap fun c => c.transfer.map (·.number)

/-- The checks of START TRANSFER on the barge hold, before admission (R102). -/
def State.holdCheck (s : State) (dest : Loc) (hold : Nat) : Option Code :=
  if dest = .berth then
    if s.btu.state ≠ .planned then some .badState
    else if hold = 0 ∨ hold > s.btu.holds.length then some .range
    else none
  else if hold ≠ 0 then some .range else none

/-- The event that starts an admitted transfer on claim `n` (R105). -/
def Ev.beginTransfer (e : Ev) (p : Port) (n : Nat) (t : Transfer) : Ev :=
  let wraps := decide (t.number ≤ e.st.rc.transferCtr)
  let e := e.map fun s => { s with rc := { s.rc with
    transferCtr := t.number, wrapped := s.rc.wrapped || wraps } }
  let e := e.map fun s => (s.modClaim n fun c => { c with state := .running t }).revise (.claim n)
  let e := (e.setInbound t.dest (some n)).setOutbound t.source (some n)
  let e := (e.st.segsOf n).foldl (fun e i => e.changeSeg i fun x => { x with permit := true }) e
  let e := match t.source with
    | .bin i => e.outboundStarted i t.number t.massAtStart
    | _ => e
  let e := e.map fun s => { s with rc := { s.rc with running := s.rc.running ++ [(t.number, t.source)] } }
  let e := (e.enqueue ⟨.running, 0⟩).commit
  e.reply p .ok (e.st.claimBodyOf n)

/-- START TRANSFER (R102). -/
def Ev.startTransfer (p : Port) (body : List Byte) (e : Ev) : Ev :=
  match fields [1, 2, 4, 1] body with
  | some [n, rev, requested, hold] =>
    if n = 0 then e.reply p .range []
    else match e.st.claim n with
      | none => e.reply p .notFound []
      | some c =>
        if !revPasses rev c.rev then e.reply p .stale (u16 c.rev)
        else if c.holder ≠ p then e.reply p .foreign []
        else if c.state ≠ .claimed then e.reply p .badState []
        else match e.st.route c.route with
          | none => e.reply p .badState []
          | some r =>
            match e.st.holdCheck r.dest hold with
            | some code => e.reply p code []
            | none =>
              if e.st.isUnverified r.source || e.st.isUnverified r.dest then e.reply p .badState []
              else
                let number := issueNumber 65535 e.st.openTransfers e.st.rc.transferCtr
                let t := e.st.newTransfer r number requested hold
                match e.st.admission c.route t with
                | some code => e.reply p code []
                | none => e.beginTransfer p n t
  | _ => e.reply p .range []

/-! ### REPORT MASS (R106 to R110) -/

/-- Lots join the lots carried of a transfer, up to 16; the flag says a 17th was met (R107). -/
def carryLots : List Nat → List Nat → List Nat × Bool
  | held, [] => (held, false)
  | held, n :: ns =>
    if held.contains n then carryLots held ns
    else if held.length < 16 then carryLots (held ++ [n]) ns
    else
      let (l, _) := carryLots held ns
      (l, true)

/-- The delivered figure and the lots carried of a transfer after parts moved (R107). -/
def Transfer.carry (t : Transfer) (ps : List Part) : Transfer :=
  let (lots, dropped) := carryLots t.lots (ps.flatMap (·.lots))
  { t with delivered := t.delivered + totalMass ps, lots, untraced := t.untraced || dropped || ps.any (·.untraced) }

/-- Set a flag of claim `n`'s transfer, a revision change of the claim (R99). -/
def Ev.flagTransfer (e : Ev) (n : Nat) (f : Transfer → Transfer) : Ev :=
  e.map fun s => (s.modTransfer n f).revise (.claim n)

/-- The origin a layer takes from its source (R79). -/
def originOf : Loc → Origin
  | .pit _ => .intake
  | .dryer => .dryer
  | _ => .rotation

/-- Step 1 of R107: the source owner releases the increment. -/
def Ev.releaseFrom (e : Ev) (source : Loc) (mass : Nat) (toReject : Bool) : Ev × List Part :=
  match source with
  | .bin i => e.releaseBin i mass toReject
  | .pit i => e.releasePit i mass toReject
  | .dryer => e.releaseDryer mass toReject
  | .berth => (e, [])
  | .reject => (e, [])

/-- Step 3 of R107: the destination owner takes the parts. -/
def Ev.deliverTo (e : Ev) (n : Nat) (t : Transfer) (ps : List Part) : Ev :=
  if ps = [] then e
  else match t.dest with
    | .bin i => e.fillBin i n t.openLayer (originOf t.source) ps
    | .dryer => e.feedDryer ps
    | .berth => e.loadBarge t.bargeHold ps
    | .reject => e.takeReject ps
    | .pit _ => e

/-- Step 2 of R107: SHORTFALL. -/
def Ev.shortfall (e : Ev) (n : Nat) (t : Transfer) (increment released : Nat) : Ev :=
  if released < increment ∧ !t.shortfall then
    (e.flagTransfer n fun t => { t with shortfall := true }).log .shortfall (.location t.source.number)
      ((increment : Int) - released)
  else e

/-- Whether a destination is a bin above its ceiling, other than by a self route (R108). -/
def State.overfills (s : State) (t : Transfer) : Bool :=
  match t.dest with
  | .bin i => !t.isSelf && decide ((s.bin i).mass > (s.bin i).ceiling)
  | _ => false

/-- The judgement of overshoot (R108). `before` is the least hard allowance before the increment. -/
def Ev.overrun (e : Ev) (n : Nat) (t : Transfer) (before : Option Int) (released : Nat) : Ev :=
  match before with
  | none => e
  | some x =>
    if (released : Int) > x then
      let e := if t.overrun then e else
        (e.flagTransfer n fun t => { t with overrun := true }).log .overrun (.location t.dest.number)
          ((released : Int) - x)
      if e.st.overfills t && !t.overfill then e.flagTransfer n fun t => { t with overfill := true } else e
    else e

/-- Whether another transfer draws on or fills a location this one moved grain at (R109). -/
def Transfer.meets (t o : Transfer) : Bool :=
  o.source == t.source || o.source == t.dest || o.dest == t.source || o.dest == t.dest

/-- An increment of claim `n`'s transfer `t` is applied in one event (R107 to R110). DESIGN CHOICE: the lots of a
self route's parts join the lots carried, as any transfer's do (log entry 37). -/
def Ev.increment (e : Ev) (n : Nat) (t : Transfer) (mass : Nat) : Ev :=
  let before := e.st.leastHard t
  let (e, ps) :=
    if t.isSelf then
      match t.source with
      | .bin i => e.turnBin i n t.openLayer mass
      | _ => (e, [])
    else e.releaseFrom t.source mass (t.dest == .reject)
  let released := totalMass ps
  let e := if t.isSelf then e else (e.shortfall n t mass released).deliverTo n t ps
  let e := e.applyChangeSet
  let e := e.map (·.modTransfer n (·.carry ps))
  let e := (e.overrun n t before released).judge n true
  if released = 0 then e
  else e.judgeWhere fun c o => c.number != n && t.meets o

/-- The claim whose open transfer has a number. -/
def State.claimOfTransfer (s : State) (x : Nat) : Option (Claim × Transfer) :=
  s.rc.claims.findSome? fun c =>
    match c.transfer with
    | some t => if t.number = x then some (c, t) else none
    | none => none

/-- A transfer number counts as issued since start-up (R106). -/
def State.wasIssued (s : State) (x : Nat) : Bool := decide (x ≤ s.rc.transferCtr) || s.rc.wrapped

/-- The closed body of a transfer number, while it is in the recent ring (R106). -/
def State.closedBody (s : State) (x : Nat) : List Byte :=
  match s.rc.ring.reverse.find? fun c => c.transfer.number == x with
  | some c => c.body
  | none => []

/-- REPORT MASS (R106). DESIGN CHOICE: an increment of 0 is answered OK with the claim body too (log entry 16). -/
def Ev.reportMass (p : Port) (body : List Byte) (e : Ev) : Ev :=
  match fields [1, 2, 2, 4] body with
  | some [n, rev, x, mass] =>
    if n = 0 ∨ x = 0 then e.reply p .range []
    else match e.st.claimOfTransfer x with
      | none => if e.st.wasIssued x then e.reply p .tooLate (e.st.closedBody x) else e.reply p .notFound []
      | some (c, t) =>
        if c.number ≠ n then e.reply p .notFound []
        else if !revPasses rev c.rev then e.reply p .stale (u16 c.rev)
        else if c.holder ≠ p then e.reply p .foreign []
        else if mass < t.reported then e.reply p .backward []
        else
          let e := e.map (·.modTransfer n fun t => { t with reported := mass })
          let e := if mass = t.reported then e else (e.increment n { t with reported := mass } (mass - t.reported)).commit
          e.reply p .ok (e.st.claimBodyOf n)
  | _ => e.reply p .range []

/-! ### Drain expiry and release (R114, R116) -/

/-- A closed transfer joins the recent ring; the 17th drops the oldest (R114). -/
def pushRing (ring : List ClosedTransfer) (c : ClosedTransfer) : List ClosedTransfer :=
  (ring ++ [c]).drop (ring.length + 1 - 16)

/-- The event of a drain expiry of claim `c` with transfer `t` (R114). -/
def Ev.closeTransfer (e : Ev) (c : Claim) (t : Transfer) : Ev :=
  let t := { t with closeTime := e.st.term }
  let closed : ClosedTransfer :=
    { claim := c.number, holder := c.holder, route := c.route, transfer := t, hard := e.st.leastHard t }
  let e := e.map fun s => { s with rc := { s.rc with ring := pushRing s.rc.ring closed } }
  let e := (e.setInbound t.dest none).setOutbound t.source none
  let e := match t.source with
    | .bin i => e.outboundClosed i t.number t.massAtStart t.delivered
    | _ => e
  let e := e.freeClaim c.number none
  e.offer [c.holder] .transferClosed closed.body

/-- RELEASE CLAIM (R116). -/
def Ev.releaseClaim (p : Port) (body : List Byte) (e : Ev) : Ev :=
  match fields [1, 2] body with
  | some [n, rev] =>
    if n = 0 then e.reply p .range []
    else match e.st.claim n with
      | none => e.reply p .notFound []
      | some c =>
        if !revPasses rev c.rev then e.reply p .stale (u16 c.rev)
        else if c.holder ≠ p ∧ p ≠ .office then e.reply p .foreign []
        else match c.state with
          | .claimed => (e.freeClaim n none).reply p .ok (e.st.claimBody c)
          | .running _ =>
            let e := (e.trip n .released).commit
            e.reply p .ok (e.st.claimBodyOf n)
          | .draining _ _ => e.reply p .ok (e.st.claimBody c)
  | _ => e.reply p .range []

/-! ### Segment motion and faults (R117 to R119) -/

/-- Whether a claim is RUNNING or DRAINING. -/
def Claim.moves (c : Claim) : Bool := c.transfer.isSome

/-- Whether a segment is HELD by a RUNNING or DRAINING claim (R117). -/
def State.segMoves (s : State) (i : SegIx) : Bool :=
  match s.holderOf i with
  | some n => match s.claim n with | some c => c.moves | none => false
  | none => false

/-- A segment fault (R118). -/
def Ev.segmentFault (e : Ev) (i : SegIx) : Ev :=
  let freed := (e.st.holderOf i).bind e.st.claim
  let e := e.changeSeg i fun x => { x with state := .faulted, permit := false }
  let n := match freed with | some c => c.number | none => 0
  let port := match freed with | some c => portNo c.holder | none => 0
  let e := if freed.isSome then e.freeClaim n (some i) else e
  let e := e.offer allPorts .segmentFault (u8 (i.val + 1) ++ u8 n ++ u8 port)
  e.log .segmentFault (.segment (i.val + 1)) n

/-- The motion report is recorded; a changed motion is a revision change (R97, R117). -/
def Ev.recordMotion (e : Ev) (i : SegIx) (running : Bool) : Ev :=
  let now := e.st.term
  let f : Segment → Segment := fun x => { x with running, motionTime := now }
  if (e.st.seg i).running = running then e.map (·.modSeg i f) else e.changeSeg i f

/-- REPORT SEGMENT MOTION (R117). -/
def Ev.reportMotion (p : Port) (body : List Byte) (e : Ev) : Ev :=
  match fields [1, 2, 1] body with
  | some [n, rev, motion] =>
    match (if motion ≤ 1 then segOf n else none) with
    | none => e.reply p .range []
    | some i =>
      let x := e.st.seg i
      if !revPasses rev x.rev then e.reply p .stale (u16 x.rev)
      else
        let e := e.recordMotion i (motion == 1)
        let e := if motion = 1 ∧ !e.st.segMoves i ∧ x.state ≠ .faulted then e.segmentFault i else e
        e.reply p .ok ((e.st.seg i).body i)
  | _ => e.reply p .range []

/-- CLEAR SEGMENT FAULT (R119). -/
def Ev.clearFault (p : Port) (body : List Byte) (e : Ev) : Ev :=
  match fields [1, 2] body with
  | some [n, rev] =>
    match segOf n with
    | none => e.reply p .range []
    | some i =>
      let x := e.st.seg i
      if !revPasses rev x.rev then e.reply p .stale (u16 x.rev)
      else if x.state ≠ .faulted ∨ x.running then e.reply p .badState []
      else
        let e := e.changeSeg i fun x => { x with state := .free }
        e.reply p .ok ((e.st.seg i).body i)
  | _ => e.reply p .range []

/-! ### Silence and RESTART (R16, R175) -/

/-- The RC's part of a station's silence: RUNNING claims trip, CLAIMED claims are freed (R16, R112). DESIGN CHOICE:
several trip, and several are freed, in the order in which they were claimed (log entry 41). -/
def Ev.silenceClaims (e : Ev) (p : Port) : Ev :=
  let mine := e.st.rc.claims.filter fun c => c.holder == p
  let e := ((mine.filter fun c => c.runs fun _ => true).map (·.number)).foldl (fun e n => e.trip n .silence) e
  ((mine.filter fun c => c.state == .claimed).map (·.number)).foldl (fun e n => e.freeClaim n none) e

/-- A segment once RESTART has dropped the claims: not HELD, its permit released (R175). -/
def Segment.dropped (x : Segment) : Segment :=
  { x with state := (match x.state with | .held _ => .free | st => st), permit := false }

/-- RESTART frees one segment; one that so changes its state, holder or permit raises its revision and is reported
to the SLPs (R97, R175). -/
def Ev.dropSeg (e : Ev) (i : SegIx) : Ev :=
  if (e.st.seg i).dropped = e.st.seg i then e else e.changeSeg i Segment.dropped

/-- After the RESTART answer the RC drops every claim with its transfer: the segments it frees take their revision
changes, nothing is logged or raised, and the running-transfer list stays (R97, R175). DEDUCED: the deletion of each
claim is reported to the SLPs, as R10 has it of every deletion (log entry 40). -/
def Ev.dropClaims (e : Ev) : Ev :=
  let e := (List.finRange 20).foldl Ev.dropSeg e
  let e := e.st.rc.claims.foldl (fun e c => e.map (·.reportDeletion (.claim c.number) [])) e
  e.map fun s => { s with rc := { s.rc with claims := [] } }

/-! ### Meanings -/

/-- The meaning of CLAIM ROUTE (R5, R100). -/
def execClaimRoute (p : Port) (seq : Byte) (body : List Byte) (s : State) : Result :=
  .next (s.request .claimRoute p seq (Ev.claimRoute p body))

/-- The meaning of START TRANSFER (R5, R102). -/
def execStartTransfer (p : Port) (seq : Byte) (body : List Byte) (s : State) : Result :=
  .next (s.request .startTransfer p seq (Ev.startTransfer p body))

/-- The meaning of REPORT MASS (R5, R106). -/
def execReportMass (p : Port) (seq : Byte) (body : List Byte) (s : State) : Result :=
  .next (s.request .reportMass p seq (Ev.reportMass p body))

/-- The meaning of a drain expiry: the DRAINING claim of a number closes (R114). -/
def execDrainExpiry (n : Nat) (s : State) : Result :=
  match s.live, s.claim n with
  | true, some c =>
    match c.state with
    | .draining t due => .next ((s.advanceTo due).event fun e => e.closeTransfer c t)
    | _ => .next s
  | _, _ => .next s

/-- The meaning of RELEASE CLAIM (R5, R116). -/
def execReleaseClaim (p : Port) (seq : Byte) (body : List Byte) (s : State) : Result :=
  .next (s.request .releaseClaim p seq (Ev.releaseClaim p body))

/-- The meaning of REPORT SEGMENT MOTION (R5, R117). -/
def execReportSegmentMotion (p : Port) (seq : Byte) (body : List Byte) (s : State) : Result :=
  .next (s.request .reportSegmentMotion p seq (Ev.reportMotion p body))

/-- The meaning of CLEAR SEGMENT FAULT (R5, R119). -/
def execClearSegmentFault (p : Port) (seq : Byte) (body : List Byte) (s : State) : Result :=
  .next (s.request .clearSegmentFault p seq (Ev.clearFault p body))

end Sys2Proof.Machine
end

