-- ==== Sys2Proof/Machine/Bins.lean ====
section
/-! DEFINITION. The Inventory Unit's requests: quality holds, ceilings, ADJUST MASS and ACCEPT BALANCE
(sections 5.5 to 5.8). -/
namespace Sys2Proof.Machine

/-- The new revision and the header of a bin, with no layer entries (R77). -/
def State.binAnswer (s : State) (i : BinIx) : List Byte := u16 (s.bin i).rev ++ (s.bin i).header i 0 0

/-- The new revision and the header of a pit, with no layer entries (R77). -/
def State.pitAnswer (s : State) (i : PitIx) : List Byte := u16 (s.pit i).rev ++ (s.pit i).header i 0 0

/-- The revision changes of an event on a bin take effect and the request is answered OK (R77, R94). -/
def Ev.finishBin (e : Ev) (p : Port) (i : BinIx) : Ev :=
  let e := e.commit
  e.reply p .ok (e.st.binAnswer i)

/-- The revision changes of an event on a pit take effect and the request is answered OK (R77, R94). -/
def Ev.finishPit (e : Ev) (p : Port) (i : PitIx) : Ev :=
  let e := e.commit
  e.reply p .ok (e.st.pitAnswer i)

/-! ### Quality holds (R87 to R89) -/

/-- A hold level of PLACE HOLD. -/
def holdLevelOf : Nat → Option HoldLevel
  | 1 => some .standard
  | 2 => some .strict
  | _ => none

/-- A hold is placed or raised: the transfer into the bin trips, then the one out of it unless it goes to
REJECT (R87). A self route trips as the transfer into the bin. -/
def Ev.holdPlaced (e : Ev) (i : BinIx) (level : HoldLevel) (p : Port) : Ev :=
  let e := (e.map (·.modBin i fun b => { b with hold := some ⟨level, p⟩ })).touch (.bin i)
  let e := e.tripWhere (fun t => t.dest == .bin i) .holdPlaced
  let e := e.tripWhere (fun t => t.source == .bin i && t.dest != .reject) .holdPlaced
  let e := e.offer allPorts .hold (holdBody i level.code (portNo p) 0)
  e.log .holdPlaced (.location (i.val + 1)) level.code

/-- PLACE HOLD (R87). -/
def Ev.placeHold (p : Port) (body : List Byte) (e : Ev) : Ev :=
  match fields [1, 2, 1] body with
  | some [n, rev, l] =>
    match binOf n, holdLevelOf l with
    | some i, some level =>
      let b := e.st.bin i
      if !revPasses rev b.rev then e.reply p .stale (u16 b.rev)
      else match b.hold, level with
        | none, _ => (e.holdPlaced i level p).finishBin p i
        | some ⟨.standard, _⟩, .standard => e.finishBin p i
        | some ⟨.standard, _⟩, .strict => (e.holdPlaced i .strict p).finishBin p i
        | some ⟨.strict, _⟩, .strict => e.finishBin p i
        | some ⟨.strict, _⟩, .standard => e.reply p .held []
    | _, _ => e.reply p .range []
  | _ => e.reply p .range []

/-- A STANDARD hold is lifted by request (R89). -/
def Ev.holdReleased (e : Ev) (i : BinIx) : Ev :=
  let e := (e.map (·.modBin i fun b => { b with hold := none })).touch (.bin i)
  let e := e.offer allPorts .hold (holdBody i 0 0 1)
  e.log .holdLifted (.location (i.val + 1)) 0

/-- RELEASE HOLD (R89). -/
def Ev.releaseHold (p : Port) (body : List Byte) (e : Ev) : Ev :=
  match fields [1, 2] body with
  | some [n, rev] =>
    match binOf n with
    | none => e.reply p .range []
    | some i =>
      let b := e.st.bin i
      if !revPasses rev b.rev then e.reply p .stale (u16 b.rev)
      else match b.hold with
        | none => e.reply p .badState []
        | some ⟨.strict, _⟩ => e.reply p .held []
        | some ⟨.standard, q⟩ =>
          if p = q ∨ p = .office then (e.holdReleased i).finishBin p i else e.reply p .role []
  | _ => e.reply p .range []

/-! ### Ceilings (R84, R85) -/

/-- A ceiling and a mode that differ from the present ones take effect (R84, R86). -/
def Ev.ceilingSet (e : Ev) (i : BinIx) (ceiling : Nat) (retained : Bool) : Ev :=
  let old := e.st.bin i
  let e := (e.map (·.modBin i fun b => { b with ceiling, retained })).touch (.bin i)
  let e := e.settleBin i old false
  if old.inbound.isSome then e.judgeWhere fun _ t => t.dest == .bin i else e

/-- SET CEILING (R84). -/
def Ev.setCeiling (p : Port) (body : List Byte) (e : Ev) : Ev :=
  match fields [1, 2, 4, 1] body with
  | some [n, rev, asked, mode] =>
    match (if mode ≤ 1 then binOf n else none) with
    | none => e.reply p .range []
    | some i =>
      let b := e.st.bin i
      let ceiling := min asked b.capacity
      let retained := mode == 1
      if !revPasses rev b.rev then e.reply p .stale (u16 b.rev)
      else if e.st.inv.frozen then e.reply p .frozen []
      else if b.locked then e.reply p .locked []
      else if ceiling < b.mass then e.reply p .belowContent []
      else if ceiling = b.ceiling ∧ retained = b.retained then e.finishBin p i
      else (e.ceilingSet i ceiling retained).finishBin p i
  | _ => e.reply p .range []

/-- LOCK CEILING and UNLOCK CEILING (R85). -/
def Ev.lockTo (locked : Bool) (p : Port) (body : List Byte) (e : Ev) : Ev :=
  match fields [1, 2] body with
  | some [n, rev] =>
    match binOf n with
    | none => e.reply p .range []
    | some i =>
      let b := e.st.bin i
      if !revPasses rev b.rev then e.reply p .stale (u16 b.rev)
      else if e.st.inv.frozen then e.reply p .frozen []
      else if b.locked = locked then e.finishBin p i
      else ((e.map (·.modBin i fun b => { b with locked })).touch (.bin i)).finishBin p i
  | _ => e.reply p .range []

/-- FREEZE CEILINGS (R85). -/
def Ev.freezeCeilings (p : Port) (body : List Byte) (e : Ev) : Ev :=
  match body with
  | [] => (e.map fun s => { s with inv := { s.inv with frozen := true } }).reply p .ok []
  | _ => e.reply p .range []

/-! ### ADJUST MASS (R91) -/

/-- The sample of an ADJUST MASS. -/
structure SurveySample where
  commodity : Nat
  moisture : Nat
  grade : Nat
deriving DecidableEq, Repr

/-- The body of an ADJUST MASS. -/
structure Adjustment where
  kind : Nat
  index : Nat
  rev : Nat
  mass : Nat
  sample : Option SurveySample
deriving DecidableEq, Repr

/-- The body form of ADJUST MASS (R3, R91). -/
def parseAdjust (body : List Byte) : Option Adjustment :=
  match takeFields [1, 1, 2, 4, 1] body with
  | some ([k, i, rev, mass, present], rest) =>
    if present = 0 then
      if rest = [] then some ⟨k, i, rev, mass, none⟩ else none
    else if present = 1 then
      match fields [1, 2, 1] rest with
      | some [c, m, g] => some ⟨k, i, rev, mass, some ⟨c, m, g⟩⟩
      | _ => none
    else none
  | _ => none

/-- Whether the sample, or its absence, allows the adjustment of a location (R91, the last two checks). -/
def State.adjustable (s : State) (a : Adjustment) (layers : List Layer) (unverified : Bool) : Bool :=
  match a.sample with
  | some x => s.isConfigured x.commodity && decide (x.moisture ≤ 350) && decide (1 ≤ x.grade ∧ x.grade ≤ 5)
  | none => !(decide (a.mass > 0) && (layers.isEmpty || unverified))

/-- Take a mass from a layer list given top to bottom: the layers left and the layers removed (R91). -/
def takeFromTop : Nat → List Layer → List Layer × List Layer
  | _, [] => ([], [])
  | m, l :: ls =>
    if m = 0 then (l :: ls, [])
    else if m < l.mass then ({ l with mass := l.mass - m } :: ls, [])
    else
      let (left, gone) := takeFromTop (m - l.mass) ls
      (left, l :: gone)

/-- Add a mass to the top layer of a list given top to bottom (R91). -/
def addToTop (m : Nat) : List Layer → List Layer
  | [] => []
  | l :: ls => { l with mass := l.mass + m } :: ls

/-- The layers after an adjustment, bottom to top, and the layers removed (R91). `number` is the number of
a SURVEY layer. -/
def adjustLayers (a : Adjustment) (number now : Nat) (layers : List Layer) : List Layer × List Layer :=
  match a.sample with
  | some x =>
    let survey : Layer :=
      { number, mass := a.mass, moisture := x.moisture, grade := x.grade, origin := .survey, fillTime := now,
        lots := [], untraced := true }
    (if a.mass = 0 then [] else [survey], layers)
  | none =>
    let total := (layers.map (·.mass)).sum
    if a.mass ≥ total then ((addToTop (a.mass - total) layers.reverse).reverse, [])
    else
      let (left, gone) := takeFromTop (total - a.mass) layers.reverse
      (left.reverse, gone)

/-- The commodity of a location after an adjustment (R76, R91). -/
def adjustCommodity (a : Adjustment) (layers : List Layer) (old : Option Nat) : Option Nat :=
  if layers = [] then none
  else match a.sample with
    | some x => some x.commodity
    | none => old

/-- The layer counter after an adjustment: a SURVEY layer keeps the number issued (R78, R91). -/
def adjustCounter (a : Adjustment) (number old : Nat) : Nat :=
  if a.sample.isSome && decide (a.mass > 0) then number else old

/-- The Adjustments counter and the lot register follow an adjustment (R91, R92). -/
def Ev.bookAdjustment (e : Ev) (surveyed before : Nat) (gone : List Layer) : Ev :=
  let e := e.modBalance fun b => { b with adjustments := fitSigned64 (b.adjustments + ((surveyed : Int) - before)) }
  (e.release (gone.flatMap (·.lots)) .adjusted).applyChangeSet

/-- The event of a passing ADJUST MASS on a bin (R91). The bottom layer leaves when every layer does (R147). DESIGN
CHOICE: the CDM's CONDITION_CHANGE is logged before the TLR's LOT_UNTRACED, since R178 lets either block be first (log
entry 36). -/
def Ev.adjustBin (e : Ev) (i : BinIx) (a : Adjustment) : Ev :=
  let old := e.st.bin i
  let number := issueNumber 65535 [] old.layerCtr
  let (layers, gone) := adjustLayers a number e.st.term old.layers
  let e := e.map (·.modBin i fun b =>
    { b with layers, unverified := false, commodity := adjustCommodity a layers b.commodity,
             layerCtr := adjustCounter a number b.layerCtr })
  let e := (e.settleBin i old (gone.length == old.layers.length)).touch (.bin i)
  e.bookAdjustment a.mass (if old.unverified then 0 else old.mass) gone

/-- The event of a passing ADJUST MASS on a pit (R91). -/
def Ev.adjustPit (e : Ev) (i : PitIx) (a : Adjustment) : Ev :=
  let old := e.st.pit i
  let number := issueNumber 65535 [] old.layerCtr
  let (layers, gone) := adjustLayers a number e.st.term old.layers
  let e := e.map (·.modPit i fun b =>
    { b with layer := layers.head?, state := if layers = [] then .empty else .loaded, unverified := false,
             commodity := adjustCommodity a layers b.commodity, layerCtr := adjustCounter a number b.layerCtr })
  let e := (e.settlePit i old).touch (.pit i)
  e.bookAdjustment a.mass (if old.unverified then 0 else old.mass) gone

/-- ADJUST MASS on a bin (R91). -/
def Ev.tryAdjustBin (e : Ev) (p : Port) (i : BinIx) (a : Adjustment) : Ev :=
  let b := e.st.bin i
  if a.mass > 2 * b.capacity then e.reply p .range []
  else if !revPasses a.rev b.rev then e.reply p .stale (u16 b.rev)
  else if b.inbound.isSome || b.outbound.isSome then e.reply p .busy []
  else if !e.st.adjustable a b.layers b.unverified then e.reply p .range []
  else (e.adjustBin i a).finishBin p i

/-- Whether a pit is RECEIVING a ticket. -/
def PitState.isReceiving : PitState → Bool
  | .receiving _ => true
  | _ => false

/-- ADJUST MASS on a pit (R91). -/
def Ev.tryAdjustPit (e : Ev) (p : Port) (i : PitIx) (a : Adjustment) : Ev :=
  let b := e.st.pit i
  if a.mass > 2 * b.capacity then e.reply p .range []
  else if !revPasses a.rev b.rev then e.reply p .stale (u16 b.rev)
  else if b.outbound.isSome || b.state.isReceiving then e.reply p .busy []
  else if !e.st.adjustable a b.layers b.unverified then e.reply p .range []
  else (e.adjustPit i a).finishPit p i

/-- ADJUST MASS (R91). -/
def Ev.adjustMass (p : Port) (body : List Byte) (e : Ev) : Ev :=
  match parseAdjust body with
  | none => e.reply p .range []
  | some a =>
    match a.kind with
    | 1 => match binOf a.index with | some i => e.tryAdjustBin p i a | none => e.reply p .range []
    | 2 => match pitOf a.index with | some i => e.tryAdjustPit p i a | none => e.reply p .range []
    | _ => e.reply p .range []

/-! ### ACCEPT BALANCE (R93) -/

/-- The figures of the ACCEPT BALANCE answer (R93). -/
def State.balanceReport (s : State) : List Byte :=
  let b := s.inv.balance
  u8 (bit 0 b.isOpen) ++ s64 b.received ++ s64 b.shipped ++ s64 b.rejected ++ s64 b.dryingLoss
    ++ s64 b.adjustments ++ s64 s.locatedMass

/-- Whether a bin or a pit is UNVERIFIED (R93). -/
def State.anyUnverified (s : State) : Bool :=
  s.inv.bins.toList.any (·.unverified) || s.inv.pits.toList.any (·.unverified)

/-- The balance is accepted (R93). -/
def Ev.settleBalance (e : Ev) : Ev :=
  let located : Int := e.st.locatedMass
  e.modBalance fun b =>
    { b with adjustments := fitSigned64 (located + b.shipped + b.rejected + b.dryingLoss - b.received)
             isOpen := false }

/-- ACCEPT BALANCE (R93): in both modes the answer, a refusal too, carries the figures. -/
def Ev.acceptBalance (p : Port) (body : List Byte) (e : Ev) : Ev :=
  match fields [1] body with
  | some [0] => e.reply p .ok e.st.balanceReport
  | some [1] =>
    if e.st.anyUnverified then e.reply p .badState e.st.balanceReport
    else
      let e := e.settleBalance
      e.reply p .ok e.st.balanceReport
  | _ => e.reply p .range []

/-! ### Meanings -/

/-- The meaning of PLACE HOLD (R5, R87). -/
def execPlaceHold (p : Port) (seq : Byte) (body : List Byte) (s : State) : Result :=
  .next (s.request .placeHold p seq (Ev.placeHold p body))

/-- The meaning of RELEASE HOLD (R5, R89). -/
def execReleaseHold (p : Port) (seq : Byte) (body : List Byte) (s : State) : Result :=
  .next (s.request .releaseHold p seq (Ev.releaseHold p body))

/-- The meaning of SET CEILING (R5, R84). -/
def execSetCeiling (p : Port) (seq : Byte) (body : List Byte) (s : State) : Result :=
  .next (s.request .setCeiling p seq (Ev.setCeiling p body))

/-- The meaning of LOCK CEILING (R5, R85). -/
def execLockCeiling (p : Port) (seq : Byte) (body : List Byte) (s : State) : Result :=
  .next (s.request .lockCeiling p seq (Ev.lockTo true p body))

/-- The meaning of UNLOCK CEILING (R5, R85). -/
def execUnlockCeiling (p : Port) (seq : Byte) (body : List Byte) (s : State) : Result :=
  .next (s.request .unlockCeiling p seq (Ev.lockTo false p body))

/-- The meaning of FREEZE CEILINGS (R5, R85). -/
def execFreezeCeilings (p : Port) (seq : Byte) (body : List Byte) (s : State) : Result :=
  .next (s.request .freezeCeilings p seq (Ev.freezeCeilings p body))

/-- The meaning of ADJUST MASS (R5, R91). -/
def execAdjustMass (p : Port) (seq : Byte) (body : List Byte) (s : State) : Result :=
  .next (s.request .adjustMass p seq (Ev.adjustMass p body))

/-- The meaning of ACCEPT BALANCE (R5, R93). -/
def execAcceptBalance (p : Port) (seq : Byte) (body : List Byte) (s : State) : Result :=
  .next (s.request .acceptBalance p seq (Ev.acceptBalance p body))

end Sys2Proof.Machine
end

