-- ==== Sys2Proof/Machine/Tickets.lean ====
section
/-! DEFINITION. The Ticket and Lot Register's requests and the weights it records (chapter 3). -/
namespace Sys2Proof.Machine

/-! ### Tickets (R36 to R40) -/

/-- A change to a ticket that is a revision change (R36). -/
def Ev.changeTicket (e : Ev) (n : Nat) (f : Ticket → Ticket) : Ev :=
  e.map fun s => (s.modTicket n f).revise (.ticket n)

/-- The revision and body of the open ticket of a number. -/
def State.ticketAnswer (s : State) (n : Nat) : List Byte :=
  match s.ticket n with | some t => t.answer | none => []

/-- A ticket leaves the table: its deletion is reported and its slot is handed over (R36). -/
def Ev.removeTicket (e : Ev) (t : Ticket) : Ev :=
  let e := e.map fun s => { s with tlr := { s.tlr with tickets := s.tlr.tickets.filter (·.number != t.number) } }
  (e.map (·.reportDeletion (.ticket t.number) [])).enqueue ⟨.ticket, t.pos⟩

/-- The checks every request on a ticket shares: the number, the ticket, the expected revision and the
state (R38). -/
def Ev.onTicket (e : Ev) (p : Port) (n rev : Nat) (allowed : TicketState → Bool) (act : Ticket → Ev) : Ev :=
  if n = 0 then e.reply p .range []
  else match e.st.ticket n with
    | none => e.reply p .notFound []
    | some t =>
      if !revPasses rev t.rev then e.reply p .stale (u16 t.rev)
      else if !allowed t.state then e.reply p .badState []
      else act t

/-- The numbers a ticket number may not take (R37). -/
def State.numbersInUse (s : State) : List Nat := s.tlr.tickets.map (·.number) ++ s.tlr.lots.map (·.number)

/-- The event of a passing OPEN TICKET (R37, R39). -/
def Ev.enterTicket (e : Ev) (p : Port) (commodity : Nat) (plate : Text) : Ev :=
  let s := e.st
  let n := issueNumber 65535 s.numbersInUse s.tlr.counter
  let t : Ticket :=
    { pos := freePos (s.tlr.tickets.map (·.pos)), number := n, state := .opened, commodity, plate, gross := none,
      sample := none, pit := none, rev := 1 }
  let e := (e.map fun s => { s with tlr := { s.tlr with counter := n } }).enqueue ⟨.counters, 0⟩
  let e := (e.map fun s => { s with tlr := { s.tlr with tickets := s.tlr.tickets ++ [t] } }).enqueue ⟨.ticket, t.pos⟩
  e.reply p .ok t.answer

/-- OPEN TICKET (R39). -/
def Ev.openTicket (p : Port) (body : List Byte) (e : Ev) : Ev :=
  match takeFields [1] body with
  | some ([c], rest) =>
    match takeText rest with
    | some (plate, []) =>
      if !e.st.isConfigured c then e.reply p .range []
      else if e.st.tlr.tickets.length ≥ 12 || decide (e.st.freeLots ≤ e.st.tlr.tickets.length) then e.reply p .full []
      else e.enterTicket p c plate
    | _ => e.reply p .range []
  | _ => e.reply p .range []

/-! ### Sample, pit and dump (R42 to R44) -/

/-- The sample recorded from a measured moisture (R42). -/
def sampleOf (moisture grade : Nat) : Sample :=
  if moisture > 350 then ⟨350, true, grade⟩ else ⟨moisture, false, grade⟩

/-- ENTER SAMPLE (R42). -/
def Ev.enterSample (p : Port) (body : List Byte) (e : Ev) : Ev :=
  match fields [2, 2, 2, 1] body with
  | some [n, rev, moisture, grade] =>
    e.onTicket p n rev (fun st => st == .weighedIn || st == .sampled) fun _ =>
      if grade < 1 ∨ grade > 5 then e.reply p .range []
      else
        let e := e.changeTicket n fun t => { t with sample := some (sampleOf moisture grade), state := .sampled }
        e.reply p .ok (e.st.ticketAnswer n)
  | _ => e.reply p .range []

/-- ASSIGN PIT (R43). -/
def Ev.assignPit (p : Port) (body : List Byte) (e : Ev) : Ev :=
  match fields [2, 2, 1] body with
  | some [n, rev, pit] =>
    e.onTicket p n rev (· == .sampled) fun _ =>
      match pitOf pit with
      | none => e.reply p .range []
      | some i =>
        if (e.st.pit i).unverified then e.reply p .badState []
        else if (e.st.pit i).state ≠ .empty then e.reply p .busy []
        else
          let e := (e.pitReceive i n).changeTicket n fun t => { t with pit := some i, state := .assigned }
          e.reply p .ok (e.st.ticketAnswer n)
  | _ => e.reply p .range []

/-- REPORT DUMPED (R44). -/
def Ev.reportDumped (p : Port) (body : List Byte) (e : Ev) : Ev :=
  match fields [2, 2] body with
  | some [n, rev] =>
    e.onTicket p n rev (· == .assigned) fun _ =>
      let e := e.changeTicket n fun t => { t with state := .dumped }
      e.reply p .ok (e.st.ticketAnswer n)
  | _ => e.reply p .range []

/-! ### The void (R46) -/

/-- A gross capture that waits for a ticket ends NOT_FOUND (R31, R46). DESIGN CHOICE: the answer has no result
body; R29 and R41 do not list NOT_FOUND among the codes that carry the bridge report (log entry 16). -/
def Ev.voidCapture (e : Ev) (n : Nat) : Ev :=
  match e.st.wbu.capture with
  | some c =>
    if c.ticket = n then (e.map fun s => { s with wbu := { s.wbu with capture := none } }).reply c.port .notFound []
    else e
  | none => e

/-- VOID TICKET (R46). -/
def Ev.voidTicket (p : Port) (body : List Byte) (e : Ev) : Ev :=
  match fields [2, 2] body with
  | some [n, rev] =>
    e.onTicket p n rev (· != .dumped) fun t =>
      let e := match t.state, t.pit with
        | .assigned, some i => e.pitEmpty i
        | _, _ => e
      ((e.voidCapture n).removeTicket t).reply p .ok t.answer
  | _ => e.reply p .range []

/-! ### The weights (R41, R45 to R48) -/

/-- The lot a ticket becomes at its tare (R47). DESIGN CHOICE: should no entry be free, which R40 excludes but for
the start-up of log entry 34, the lot stands past the 400 entries and has no mirror slot. -/
def State.lotOf (s : State) (t : Ticket) (net : Nat) : Lot :=
  let c := s.commodity t.commodity
  let x := t.sample.getD ⟨0, false, 0⟩
  let m := standardMass c net x.moisture
  { pos := freePos (s.tlr.lots.map (·.pos)), number := t.number, damaged := false, commodity := t.commodity,
    grade := x.grade, wet := !c.configured || decide (x.moisture > c.safeMoisture), estimated := x.estimated, net,
    moisture := x.moisture, standard := m.standard, waterShrink := m.water, handlingShrink := m.handling,
    intakeTime := s.term, refs := 1, rev := 1 }

/-- A lot enters the register and is handed over (R47). -/
def Ev.enterLot (e : Ev) (l : Lot) : Ev :=
  (e.map fun s => { s with tlr := { s.tlr with lots := s.tlr.lots ++ [l] } }).enqueueLot l

/-- A gross is recorded (R41). -/
def Ev.recordGross (e : Ev) (p : Port) (n mass : Nat) : Ev :=
  let now := e.st.term
  let e := e.changeTicket n fun t => { t with gross := some ⟨mass, now⟩, state := .weighedIn }
  e.reply p .ok (e.st.ticketAnswer n)

/-- A ticket closes at the tare (R45). -/
def Ev.closeTicket (e : Ev) (p : Port) (t : Ticket) (gross tare : Nat) : Ev :=
  let net := gross - tare
  let l := e.st.lotOf t net
  let answer := u16 t.rev ++ t.bodyAs 5 (some tare)
  if net = 0 then
    let e := e.removeTicket t
    let e := match t.pit with | some i => e.pitEmpty i | none => e
    e.reply p .ok answer
  else
    let e := (e.enterLot l).removeTicket t
    let e := match t.pit with | some i => e.pitLoad i l | none => e
    e.reply p .ok (answer ++ l.body)

/-- A tare is judged against the gross and taken or refused (R45). -/
def Ev.recordTare (e : Ev) (p : Port) (n mass : Nat) : Ev :=
  match e.st.ticket n with
  | none => e.reply p .notFound []
  | some t =>
    let gross := (t.gross.getD ⟨0, 0⟩).mass
    if mass > gross then e.reply p .range (t.answer ++ u32 mass)
    else e.closeTicket p t gross mass

/-! ### Meanings -/

/-- The meaning of OPEN TICKET (R5, R39). -/
def execOpenTicket (p : Port) (seq : Byte) (body : List Byte) (s : State) : Result :=
  .next (s.request .openTicket p seq (Ev.openTicket p body))

/-- The meaning of ENTER SAMPLE (R5, R42). -/
def execEnterSample (p : Port) (seq : Byte) (body : List Byte) (s : State) : Result :=
  .next (s.request .enterSample p seq (Ev.enterSample p body))

/-- The meaning of ASSIGN PIT (R5, R43). -/
def execAssignPit (p : Port) (seq : Byte) (body : List Byte) (s : State) : Result :=
  .next (s.request .assignPit p seq (Ev.assignPit p body))

/-- The meaning of REPORT DUMPED (R5, R44). -/
def execReportDumped (p : Port) (seq : Byte) (body : List Byte) (s : State) : Result :=
  .next (s.request .reportDumped p seq (Ev.reportDumped p body))

/-- The meaning of VOID TICKET (R5, R46). -/
def execVoidTicket (p : Port) (seq : Byte) (body : List Byte) (s : State) : Result :=
  .next (s.request .voidTicket p seq (Ev.voidTicket p body))

end Sys2Proof.Machine
end

