-- ==== Sys2Proof/Machine/Weighbridge.lean ====
section
/-! DEFINITION. The Weighbridge Unit: samples, the bridge state, zero tracking, ZERO BRIDGE and captures
(chapter 2). -/
namespace Sys2Proof.Machine

/-- Change the Weighbridge Unit. -/
def Ev.modWbu (e : Ev) (f : Wbu → Wbu) : Ev := e.map fun s => { s with wbu := f s.wbu }

/-! ### The bridge state (R23, R24) -/

/-- A raw mass joins the window; the oldest of 17 leaves (R23). -/
def pushWindow (w : List Int) (raw : Int) : List Int := (w ++ [raw]).drop (w.length + 1 - 16)

/-- Least of a list of integers, absent when empty. -/
def smallest : List Int → Option Int
  | [] => none
  | x :: xs => some (xs.foldl min x)

/-- Largest minus smallest of a window (R24). -/
def spread (w : List Int) : Int := (greatest w).getD 0 - (smallest w).getD 0

/-- The bridge state a sample leaves (R24). -/
def bridgeAfter (c : ScaleConfig) (raw : Int) (w : List Int) : Bridge :=
  if raw > (c.capacity : Int) + 9 * c.division then .overload
  else if raw < -20 * (c.division : Int) then .underload
  else if w.length < 16 then .motion
  else if spread w > c.division then .motion
  else .stable

/-- A sample joins the window, the state is set and the staleness timer restarts (R21 to R24). -/
def Wbu.weigh (w : Wbu) (c : ScaleConfig) (counts : Int) (now : Nat) : Wbu :=
  let raw := rawMass c w.trackOffset counts
  let window := pushWindow w.window raw
  { w with window, latest := some counts, bridge := bridgeAfter c raw window, timer := some now }

/-! ### Zero tracking (R26, R27) -/

/-- The candidate offset broke the drift limit (R27). -/
def Ev.zeroDrift (e : Ev) (candidate : Int) : Ev :=
  let e := e.modWbu fun w => { w with zeroDrift := true }
  let e := e.log .zeroDrift .none (offsetMass e.st.scale candidate)
  e.offer [.scale, .office] .bridgeFault (u8 2 ++ e.st.bridgeReport)

/-- Zero tracking after a sample (R26, R27). `idle` says that no capture was pending when it arrived. DESIGN CHOICE:
R35 closes with a creep beyond the drift limit that raises ZERO_DRIFT at the first STABLE sample after start-up, while
by R26 no sample more than half a division from zero is tracked; R26 is followed (log entry 47). -/
def Ev.trackZero (e : Ev) (counts : Int) (idle : Bool) : Ev :=
  let c := e.st.scale
  let w := e.st.wbu
  let raw := w.window.getLast?.getD 0
  if w.bridge = .stable ∧ 2 * raw.natAbs ≤ c.division ∧ idle ∧ !w.zeroDrift then
    let candidate := counts - c.calZero
    if offsetBeyond c candidate 4 then e.zeroDrift candidate
    else e.modWbu fun w => { w with trackOffset := candidate }
  else e

/-! ### Captures (R30 to R33) -/

/-- A capture ends without a weight: it is no longer pending, and is answered with the bridge report (R31). -/
def Ev.endCapture (e : Ev) (p : Port) (code : Code) : Ev :=
  let e := e.modWbu fun w => { w with capture := none }
  e.reply p code e.st.bridgeReport

/-- A capture takes the displayed mass of the latest sample (R33). -/
def Ev.completeCapture (e : Ev) (p : Port) (kind : CaptureKind) (ticket : Nat) : Ev :=
  let mass := e.st.bridgeMass
  if mass < 20 * (e.st.scale.division : Int) then e.endCapture p .range
  else
    let e := e.modWbu fun w => { w with capture := none }
    match kind with
    | .gross => e.recordGross p ticket mass.toNat
    | .tare => e.recordTare p ticket mass.toNat

/-- The time limit of a capture, 5 s (section 2.5). -/
def captureTime : Nat := 5000

/-- The TLR hands a capture to the WBU (R30; log entry 26). -/
def Ev.capture (e : Ev) (p : Port) (kind : CaptureKind) (ticket : Nat) : Ev :=
  let w := e.st.wbu
  if w.capture.isSome then e.reply p .busy e.st.bridgeReport
  else if w.zeroDrift then e.reply p .bridge e.st.bridgeReport
  else match w.bridge with
    | .stale | .overload | .underload => e.reply p .bridge e.st.bridgeReport
    | .stable => e.completeCapture p kind ticket
    | .motion => e.modWbu fun w =>
      { w with capture := some { port := p, kind, ticket, deadline := e.st.ms + captureTime } }

/-- CAPTURE GROSS (R41). -/
def Ev.captureGross (p : Port) (body : List Byte) (e : Ev) : Ev :=
  match fields [2, 2] body with
  | some [n, rev] => e.onTicket p n rev (· == .opened) fun _ => e.capture p .gross n
  | _ => e.reply p .range []

/-- CAPTURE TARE (R45). -/
def Ev.captureTare (p : Port) (body : List Byte) (e : Ev) : Ev :=
  match fields [2, 2] body with
  | some [n, rev] => e.onTicket p n rev (· == .dumped) fun _ => e.capture p .tare n
  | _ => e.reply p .range []

/-- A pending capture after a sample (R31). -/
def Ev.sampleCapture (e : Ev) : Ev :=
  match e.st.wbu.capture with
  | none => e
  | some c =>
    match e.st.wbu.bridge with
    | .stable => e.completeCapture c.port c.kind c.ticket
    | .overload | .underload => e.endCapture c.port .bridge
    | .motion | .stale => e

/-- The event of a sample the WBU acts on (R24). -/
def Ev.takeSample (e : Ev) (c : ScaleConfig) (counts : Int) : Ev :=
  let idle := e.st.wbu.capture.isNone
  let now := e.st.ms
  ((e.modWbu (·.weigh c counts now)).trackZero counts idle).sampleCapture

/-! ### ZERO BRIDGE (R28) and staleness (R25) -/

/-- ZERO BRIDGE (R28). -/
def Ev.zeroBridge (p : Port) (body : List Byte) (e : Ev) : Ev :=
  let c := e.st.scale
  let offset := e.st.wbu.latest.getD 0 - c.calZero
  if body ≠ [] then e.reply p .range e.st.bridgeReport
  else if e.st.wbu.capture.isSome then e.reply p .busy e.st.bridgeReport
  else if e.st.wbu.bridge ≠ .stable then e.reply p .bridge e.st.bridgeReport
  else if offsetBeyond c offset 2 then e.reply p .range e.st.bridgeReport
  else
    let e := e.modWbu fun w => { w with trackOffset := offset, zeroDrift := false }
    e.reply p .ok e.st.bridgeReport

/-- The span of the staleness timer, 0.5 s (R24). -/
def staleTime : Nat := 500

/-- The staleness timer expires (R25). -/
def Ev.bridgeStale (e : Ev) : Ev :=
  let was := e.st.wbu.bridge
  let e := e.modWbu fun w => { w with bridge := .stale, window := [], timer := none }
  if was = .stale then e
  else
    let e := e.log .bridgeStale .none 0
    let e := e.offer [.scale, .office] .bridgeFault (u8 1 ++ e.st.bridgeReport)
    match e.st.wbu.capture with
    | some c => e.endCapture c.port .bridge
    | none => e

/-! ### Meanings -/

/-- The meaning of CAPTURE GROSS (R5, R30, R41). -/
def execCaptureGross (p : Port) (seq : Byte) (body : List Byte) (s : State) : Result :=
  .next (s.request .captureGross p seq (Ev.captureGross p body))

/-- The meaning of CAPTURE TARE (R5, R30, R45). -/
def execCaptureTare (p : Port) (seq : Byte) (body : List Byte) (s : State) : Result :=
  .next (s.request .captureTare p seq (Ev.captureTare p body))

/-- The meaning of ZERO BRIDGE (R5, R28). -/
def execZeroBridge (p : Port) (seq : Byte) (body : List Byte) (s : State) : Result :=
  .next (s.request .zeroBridge p seq (Ev.zeroBridge p body))

/-- The meaning of WSI IDLE: WSI_CLK has stayed idle for 1 ms (R19). -/
def execWsiIdle (s : State) : Result :=
  .next (if s.live then { s with wbu := { s.wbu with wsi := .shifting 0 } } else s)

/-- Whether the WSI receiver is SHIFTING (R19). -/
def WsiReceiver.isShifting : WsiReceiver → Bool
  | .shifting _ => true
  | .aligning => false

/-- The meaning of a sample arrival: the receiver, SHIFTING, has taken the 24th bit (R19, R20, R24). -/
def execSampleArrival (word : SampleWord) (s : State) : Result :=
  if s.live && s.wbu.wsi.isShifting then
    let s := { s with wbu := { s.wbu with wsi := .aligning } }
    match s.cfg.scale with
    | some c => .next (s.event fun e => e.takeSample c word.toInt)
    | none => .next s
  else .next s

/-- The meaning of the staleness timer's expiry (R25). -/
def execStalenessTimerExpiry (s : State) : Result :=
  match s.live, s.wbu.timer with
  | true, some t => .next ((s.advanceTo (t + staleTime)).event Ev.bridgeStale)
  | _, _ => .next s

/-- The meaning of the deadline of a pending capture (R32). -/
def execCaptureDeadline (s : State) : Result :=
  match s.live, s.wbu.capture with
  | true, some c => .next ((s.advanceTo c.deadline).event fun e => e.endCapture c.port .motion)
  | _, _ => .next s

end Sys2Proof.Machine
end

