-- ==== Sys2Proof/Machine/CableBus.lean ====
section
/-! DEFINITION. The cable bus, the poll cycle and surveys of the Condition Monitor (sections 8.2, 8.3, 8.8). -/
namespace Sys2Proof.Machine

/-- Change the Condition Monitor. -/
def Ev.modCdm (e : Ev) (f : Cdm → Cdm) : Ev := e.map fun s => { s with cdm := f s.cdm }

/-- Change the node of an address. -/
def Cdm.modNode (c : Cdm) (addr : Nat) (f : Node → Node) : Cdm :=
  { c with nodes := c.nodes.map fun n => if n.addr = addr then f n else n }

/-- The configured node of an address. -/
def State.node (s : State) (addr : Nat) : Option Node := s.cdm.nodes.find? (·.addr == addr)

/-- The bin whose cable a node is on. -/
def State.binOfNode (s : State) (addr : Nat) : Option BinIx := (s.node addr).map (·.bin)

/-- The scope nodes of the running survey. -/
def State.scope (s : State) : List Nat :=
  match s.cdm.survey with | some r => r.nodes | none => []

/-- The conversion wait, 750 ms (R135). -/
def convertTime : Nat := 750

/-! ### Replies (R135, R138, R139) -/

/-- The codes of an ANSWERED READ POINTS reply: the sum over the address, the codes and the check is 0
(R135). -/
def pointCodes (addr : Nat) (reply : Option (List Byte)) : Option (List Byte) :=
  match reply with
  | some bs =>
    if bs.length = 9 ∧ sumBytes (BitVec.ofNat 8 addr :: bs) = 0 then some (bs.take 8) else none
  | none => none

/-- The code as stored: 0x82 to 0xC3 is stored as 0x81 (R138). -/
def storedCode (c : Byte) : Byte := if 0x82 ≤ c.toNat ∧ c.toNat ≤ 0xC3 then 0x81 else c

/-- A node's reply is stored (R138). -/
def Node.answered (n : Node) (codes : List Byte) (now : Nat) : Node :=
  { n with
    noAnswer := 0
    silent := false
    points := Vector.ofFn fun (i : Fin 8) =>
      { n.points[i] with code := storedCode (codes.getD i 0x80), good := some now } }

/-- A NO_ANSWER of a node is counted; at 3 CABLE_SILENT is set and logged (R139). -/
def Ev.countNoAnswer (e : Ev) (addr : Nat) : Ev :=
  match e.st.node addr with
  | none => e
  | some n =>
    let c := min 3 (n.noAnswer + 1)
    let e := e.modCdm (·.modNode addr fun n => { n with noAnswer := c, silent := n.silent || c == 3 })
    if c = 3 ∧ !n.silent then e.log .cableSilent (.node addr) (n.bin.val + 1) else e

/-- The end of a READ POINTS transaction: the reply is stored or counted (R138, R139). -/
def Ev.takeReply (e : Ev) (addr : Nat) (codes : Option (List Byte)) : Ev :=
  match codes with
  | some cs =>
    let now := e.st.ms
    e.modCdm (·.modNode addr fun n => n.answered cs now)
  | none => e.countNoAnswer addr

/-! ### The poll cycle (R137) -/

/-- Whether a bin has a node in the scope of the running survey (R137). -/
def State.inScope (s : State) (i : BinIx) : Bool := s.scope.any fun a => s.binOfNode a == some i

/-- Step 3 of the poll cycle: the poll of every bin, and the cycle's end (R137). -/
def Ev.pollBins (e : Ev) : Ev :=
  let e := (List.finRange 28).foldl (fun e i => if e.st.inScope i then e else e.formBin i) e
  e.modCdm fun c => { c with poll := .idle }

/-- The addresses the poll cycle would still read, in ascending order (R137). -/
def pollable (scope : List Nat) (rest : List Nat) : List Nat := rest.filter fun a => !scope.contains a

/-- The next read of the poll cycle is requested, or the cycle ends (R137). -/
def Ev.nextRead (e : Ev) (rest : List Nat) : Ev :=
  match pollable e.st.scope rest with
  | a :: _ =>
    e.modCdm fun c =>
      { c with poll := .reading a (rest.dropWhile (· != a)).tail, pollWait := some (.readPoints a) }
  | [] => e.pollBins

/-- The configured addresses in ascending order (R134, R137). -/
def State.addresses (s : State) : List Nat := (List.range 0x70).filter fun a => (s.node a).isSome

/-- The poll cycle's CONVERT has ended (R135, R137). -/
def Ev.convertEnd (e : Ev) (sent : Bool) : Ev :=
  if sent then
    let due := e.st.ms + convertTime
    e.modCdm fun c => { c with poll := .waiting due }
  else
    ((pollable e.st.scope e.st.addresses).foldl Ev.countNoAnswer e).pollBins

/-! ### Surveys (R148 to R152) -/

/-- The codes of a node's points as stored. -/
def Node.temps (n : Node) : List (Option Int) := n.points.toList.map fun p => codeTemp p.code

/-- The temperature of point `k` (from 0) when its code is valid. -/
def tempAt (ts : List (Option Int)) (k : Nat) : Option Int := (ts[k]?).join

/-- The valid temperatures of the neighbours of point `k` (from 0) (R134, R149). -/
def neighbours (ts : List (Option Int)) (k : Nat) : List Int :=
  (if k = 0 then [] else (tempAt ts (k - 1)).toList) ++ (tempAt ts (k + 1)).toList

/-- Whether point `k` (from 0) is suspect (R149). -/
def suspectAt (ts : List (Option Int)) (k : Nat) : Bool :=
  match tempAt ts k, neighbours ts k with
  | some t, n :: ns => (n :: ns).all fun x => decide ((t - x).natAbs > 15)
  | _, _ => false

/-- The lowest-numbered point (from 1) of eight that satisfies a test on its position from 0. -/
def firstPoint (f : Nat → Bool) : Option Nat := ((List.range 8).find? f).map (· + 1)

/-- The failed location of a node (R149). -/
def Node.failedPoint (n : Node) : Option FailLoc :=
  (firstPoint fun k => (n.points.toList[k]?).any (·.code == 0x81)).map fun p => ⟨n.bin, n.cable, p⟩

/-- The suspect location of a node (R149). -/
def Node.suspectPoint (n : Node) : Option FailLoc :=
  (firstPoint (suspectAt n.temps)).map fun p => ⟨n.bin, n.cable, p⟩

/-- The status of a natural end (R151). -/
def SurveyRun.status (r : SurveyRun) : SurveyStatus :=
  if r.silentAt.isSome then .nodeSilent
  else if r.failedAt.isSome then .failedPoint
  else if r.suspectAt.isSome then .suspectPoint
  else .completedOk

/-- The first failing location of the highest kind found (R151). -/
def SurveyRun.location (r : SurveyRun) : Option FailLoc :=
  (r.silentAt.or r.failedAt).or r.suspectAt

/-- The subject of a SURVEY_END event: the node of the failing location (R151, R179). -/
def State.locNode (s : State) (l : Option FailLoc) : Subject :=
  match l with
  | some l =>
    match s.cdm.nodes.find? fun n => n.bin == l.bin && n.cable == l.cable with
    | some n => .node n.addr
    | none => .none
  | none => .none

/-- An entry joins the survey log; the ninth drops the oldest (R151). -/
def Cdm.pushEntry (c : Cdm) (x : SurveyEntry) : Cdm := { c with log := (x :: c.log).take 8 }

/-- A transaction of the survey on the bus is no longer the survey's (R152). -/
def BusTx.orphaned (t : BusTx) : BusTx := { t with owner := if t.owner = .survey then .orphan else t.owner }

/-- The running survey ends with a status and its location (R151). -/
def Ev.endSurvey (e : Ev) (r : SurveyRun) (status : SurveyStatus) (loc : Option FailLoc) : Ev :=
  let x : SurveyEntry :=
    { number := r.number, status, startTime := r.startTime, endTime := e.st.term, spans := r.spans, loc }
  let e := e.modCdm fun c =>
    { c.pushEntry x with survey := none, surveyWait := none, bus := c.bus.map BusTx.orphaned }
  let e := e.enqueue ⟨.survey, 0⟩
  let e := e.log .surveyEnd (e.st.locNode loc) status.code
  e.offer [r.port, .office] .surveyDone x.bytes

/-- The first attempt at the node in hand is requested; a survey with no node left ends (R149, R151). -/
def Ev.stepSurvey (e : Ev) (r : SurveyRun) : Ev :=
  match r.todo with
  | [] => e.endSurvey r r.status r.location
  | a :: _ =>
    e.modCdm fun c => { c with survey := some { r with attempt := 1, wait := none }, surveyWait := some (.selfCheck a) }

/-- The node in hand is done: a bin whose last scope node it was is formed, and the survey goes on (R149,
R150). DESIGN CHOICE: the running survey's record is handed over at its start and its end alone, as R148 and R151
name them (log entry 45). -/
def Ev.nodeDone (e : Ev) (r : SurveyRun) (addr : Nat) : Ev :=
  let r := { r with todo := r.todo.tail }
  let e := e.modCdm fun c => { c with survey := some r }
  let e := match e.st.binOfNode addr with
    | some i => if r.todo.any fun a => e.st.binOfNode a == some i then e else e.formBin i
    | none => e
  e.stepSurvey r

/-- An attempt at the node in hand failed, its NO_ANSWER already counted (R149). -/
def Ev.attemptFailed (e : Ev) (r : SurveyRun) (addr : Nat) : Ev :=
  if r.attempt = 1 then
    e.modCdm fun c => { c with survey := some { r with attempt := 2, wait := none }, surveyWait := some (.selfCheck addr) }
  else
    let loc := (e.st.node addr).map fun n => ⟨n.bin, n.cable, 0⟩
    e.nodeDone { r with silentAt := r.silentAt.or loc } addr

/-- The survey judges the stored codes of the node in hand (R149). -/
def Ev.judgeNode (e : Ev) (r : SurveyRun) (addr : Nat) : Ev :=
  let n := e.st.node addr
  e.nodeDone
    { r with failedAt := r.failedAt.or (n.bind Node.failedPoint), suspectAt := r.suspectAt.or (n.bind Node.suspectPoint) }
    addr

/-- The spans of START SURVEY in a body after its count; absent when one is out of range (R148). -/
def parseSpans : Nat → List Byte → Option Spans
  | 0, [] => some []
  | n + 1, a :: b :: rest =>
    match binOf a.toNat, binOf b.toNat with
    | some x, some y => if x ≤ y then (parseSpans n rest).map ((x, y) :: ·) else none
    | _, _ => none
  | _, _ => none

/-- The body of START SURVEY (R148). -/
def parseSurvey : List Byte → Option Spans
  | [] => none
  | n :: rest => if n.toNat ≤ 4 then parseSpans n.toNat rest else none

/-- Whether a bin is named by a scope; the empty scope is FULL (R148). -/
def inSpans (spans : Spans) (i : BinIx) : Bool :=
  spans.isEmpty || spans.any fun p => decide (p.1 ≤ i ∧ i ≤ p.2)

/-- The scope nodes: in bin order, and within a bin in cable order (R148). -/
def State.scopeNodes (s : State) (spans : Spans) : List Nat :=
  ((List.finRange 28).filter (inSpans spans)).flatMap fun i => (s.nodesOf i).map (·.addr)

/-- START SURVEY (R148). -/
def Ev.startSurvey (p : Port) (body : List Byte) (e : Ev) : Ev :=
  match parseSurvey body with
  | none => e.reply p .range e.st.surveyReport
  | some spans =>
    if e.st.cdm.survey.isSome then e.reply p .busy e.st.surveyReport
    else
      let number := if e.st.cdm.surveyCtr ≥ 255 then 1 else e.st.cdm.surveyCtr + 1
      let nodes := e.st.scopeNodes spans
      let r : SurveyRun :=
        { number, port := p, spans, startTime := e.st.term, nodes, todo := nodes, attempt := 1, wait := none,
          silentAt := none, failedAt := none, suspectAt := none }
      let e := (e.modCdm fun c => { c with surveyCtr := number, survey := some r }).enqueue ⟨.survey, 0⟩
      let e := e.stepSurvey r
      e.reply p .ok e.st.surveyReport

/-- ABORT SURVEY (R152). -/
def Ev.abortSurvey (p : Port) (body : List Byte) (e : Ev) : Ev :=
  if body ≠ [] then e.reply p .range e.st.surveyReport
  else match e.st.cdm.survey with
    | none => e.reply p .badState e.st.surveyReport
    | some r =>
      let e := e.endSurvey r .aborted r.location
      e.reply p .ok e.st.surveyReport

/-! ### The bus (R136) -/

/-- The bus falls idle. -/
def Ev.freeBus (e : Ev) : Ev := e.modCdm fun c => { c with bus := none }

/-- A READ POINTS transaction ends (R137, R138, R149, R152). -/
def Ev.readEnd (e : Ev) (owner : BusOwner) (addr : Nat) (reply : Option (List Byte)) : Ev :=
  let codes := pointCodes addr reply
  let e := e.freeBus.takeReply addr codes
  match owner, e.st.cdm.survey with
  | .poll, _ =>
    match e.st.cdm.poll with
    | .reading _ rest => e.nextRead rest
    | _ => e
  | .survey, some r => if codes.isSome then e.judgeNode r addr else e.attemptFailed r addr
  | .survey, none => e
  | .orphan, _ => e

/-- A SELF-CHECK transaction ends (R139, R149, R152). -/
def Ev.selfCheckEnd (e : Ev) (owner : BusOwner) (addr : Nat) (acknowledged : Bool) : Ev :=
  let e := e.freeBus
  let e := if acknowledged then e else e.countNoAnswer addr
  match owner, e.st.cdm.survey with
  | .survey, some r =>
    if acknowledged then
      let due := e.st.ms + convertTime
      e.modCdm fun c => { c with survey := some { r with wait := some due } }
    else e.attemptFailed r addr
  | _, _ => e

/-- The next transaction takes the bus, the poll cycle's before the survey's (R136). DESIGN CHOICE: the poll
cycle's goes first each time it waits, so a survey's can be passed more than once (log entry 38). -/
def Cdm.startTx (c : Cdm) : Cdm :=
  match c.bus, c.pollWait, c.surveyWait with
  | none, some k, _ => { c with bus := some ⟨.poll, k⟩, pollWait := none }
  | none, none, some k => { c with bus := some ⟨.survey, k⟩, surveyWait := none }
  | _, _, _ => c

/-- The poll cycle timer expires: its next expiry is set, and a cycle begins when none is in progress (R137). -/
def Cdm.pollExpiry (c : Cdm) (due period : Nat) : Cdm :=
  let c := { c with pollDue := some (due + 1000 * period) }
  match c.poll with
  | .idle => { c with poll := .converting, pollWait := some .convert }
  | _ => c

/-- The poll cycle period in seconds (R134). -/
def State.pollPeriod (s : State) : Nat := match s.cfg.cables with | some c => c.period | none => 60

/-! ### Meanings -/

/-- The meaning of START SURVEY (R5, R148). -/
def execStartSurvey (p : Port) (seq : Byte) (body : List Byte) (s : State) : Result :=
  .next (s.request .startSurvey p seq (Ev.startSurvey p body))

/-- The meaning of ABORT SURVEY (R5, R152). -/
def execAbortSurvey (p : Port) (seq : Byte) (body : List Byte) (s : State) : Result :=
  .next (s.request .abortSurvey p seq (Ev.abortSurvey p body))

/-- The meaning of a poll cycle timer expiry (R137). -/
def execPollCycleExpiry (s : State) : Result :=
  match s.live, s.cdm.pollDue with
  | true, some due =>
    let s := s.advanceTo due
    .next { s with cdm := s.cdm.pollExpiry due s.pollPeriod }
  | _, _ => .next s

/-- The meaning of a transaction's start on a free bus (R136). -/
def execBusTransactionStart (s : State) : Result :=
  .next (if s.live then { s with cdm := s.cdm.startTx } else s)

/-- The meaning of the end of CONVERT (R135, R137). -/
def execConvertComplete (sent : Bool) (s : State) : Result :=
  match s.live, s.cdm.bus with
  | true, some ⟨_, .convert⟩ => .next (s.event fun e => e.freeBus.convertEnd sent)
  | _, _ => .next s

/-- The meaning of the end of the poll cycle's conversion wait (R137). -/
def execPollConversionWait (s : State) : Result :=
  match s.live, s.cdm.poll with
  | true, .waiting due => .next ((s.advanceTo due).event fun e => e.nextRead e.st.addresses)
  | _, _ => .next s

/-- The meaning of the end of a READ POINTS transaction; `reply` is absent when the node did not
acknowledge its address (R135, R138). -/
def execReadPointsEnd (reply : Option (List Byte)) (s : State) : Result :=
  match s.live, s.cdm.bus with
  | true, some ⟨owner, .readPoints addr⟩ => .next (s.event fun e => e.readEnd owner addr reply)
  | _, _ => .next s

/-- The meaning of the end of a SELF-CHECK transaction (R149). -/
def execSelfCheckEnd (acknowledged : Bool) (s : State) : Result :=
  match s.live, s.cdm.bus with
  | true, some ⟨owner, .selfCheck addr⟩ => .next (s.event fun e => e.selfCheckEnd owner addr acknowledged)
  | _, _ => .next s

/-- The survey's READ POINTS is requested after its conversion wait (R149). -/
def Cdm.requestRead (c : Cdm) (r : SurveyRun) (addr : Nat) : Cdm :=
  { c with survey := some { r with wait := none }, surveyWait := some (.readPoints addr) }

/-- The meaning of the end of a survey's conversion wait (R149). -/
def execSurveyConversionWait (s : State) : Result :=
  match s.live, s.cdm.survey with
  | true, some r =>
    match r.wait, r.todo with
    | some due, addr :: _ =>
      let s := s.advanceTo due
      .next { s with cdm := s.cdm.requestRead r addr }
    | _, _ => .next s
  | _, _ => .next s

/-- The meaning of a clock hold past 25 ms: the transaction is given up (R135). -/
def execClockHoldTimeout (s : State) : Result :=
  match s.live, s.cdm.bus with
  | true, some ⟨_, .convert⟩ => .next (s.event fun e => e.freeBus.convertEnd false)
  | true, some ⟨owner, .readPoints addr⟩ => .next (s.event fun e => e.readEnd owner addr none)
  | true, some ⟨owner, .selfCheck addr⟩ => .next (s.event fun e => e.selfCheckEnd owner addr false)
  | _, _ => .next s

end Sys2Proof.Machine
end

