-- ==== Sys2Proof/Machine/Image.lean ====
section
/-! DEFINITION. Reading fields from stored bytes, and the configuration image: its header, its eight areas
and their loading (section 10.1). The order and widths of the fields inside an area are log entry 8. -/
namespace Sys2Proof.Machine

/-! ### Reading fields -/

/-- A reader of stored bytes: it takes a value from the front, or fails. -/
abbrev Parse (α : Type) := StateT (List Byte) Option α

/-- An unsigned field of `w` bytes (R3). -/
def Parse.nat (w : Nat) : Parse Nat := fun bs =>
  if bs.length < w then none else some (beVal (bs.take w), bs.drop w)

/-- A signed field of `w` bytes (R3). -/
def Parse.int (w : Nat) : Parse Int := fun bs =>
  if bs.length < w then none else some (beSigned (bs.take w), bs.drop w)

/-- An unsigned field whose value lies in a range. -/
def Parse.within (w lo hi : Nat) : Parse Nat := do
  let n ← Parse.nat w
  if lo ≤ n ∧ n ≤ hi then pure n else failure

/-- A signed field whose value lies in a range. -/
def Parse.intWithin (w : Nat) (lo hi : Int) : Parse Int := do
  let n ← Parse.int w
  if lo ≤ n ∧ n ≤ hi then pure n else failure

/-- A byte that is 0 or 1. -/
def Parse.flag : Parse Bool := do
  let n ← Parse.within 1 0 1
  pure (n == 1)

/-- A text field (R3). -/
def Parse.text : Parse Text := fun bs => takeText bs

/-- A field that a function turns into a value. -/
def Parse.code {α : Type} (w : Nat) (f : Nat → Option α) : Parse α := do
  let n ← Parse.nat w
  match f n with | some x => pure x | none => failure

/-- `n` values one after another. -/
def Parse.many {α : Type} (p : Parse α) : Nat → Parse (List α)
  | 0 => pure []
  | n + 1 => do
    let x ← p
    let xs ← Parse.many p n
    pure (x :: xs)

/-- `n` values one after another, as a fixed collection. -/
def Parse.times {α : Type} (p : Parse α) : (n : Nat) → Parse (Vector α n)
  | 0 => pure #v[]
  | n + 1 => do
    let xs ← Parse.times p n
    let x ← p
    pure (xs.push x)

/-- A value that satisfies a test. -/
def Parse.such {α : Type} (p : Parse α) (ok : α → Bool) : Parse α := do
  let x ← p
  if ok x then pure x else failure

/-- Run a reader over all of some bytes; bytes left over fail it. -/
def Parse.all {α : Type} (p : Parse α) (bs : List Byte) : Option α :=
  match p bs with
  | some (x, []) => some x
  | _ => none

/-- Values until the bytes end. `fuel` bounds their number; the number of bytes is enough. -/
def Parse.untilEnd {α : Type} (p : Parse α) : Nat → List Byte → Option (List α)
  | _, [] => some []
  | 0, _ => none
  | fuel + 1, bs =>
    match p bs with
    | some (x, rest) => (Parse.untilEnd p fuel rest).map (x :: ·)
    | none => none

/-! ### Areas (log entry 8) -/

/-- Area 1: link (R1, section 1.8). -/
def linkArea : Parse LinkConfig := do
  let a ← Parse.nat 1
  let b ← Parse.nat 1
  let c ← Parse.nat 1
  let d ← Parse.nat 1
  let e ← Parse.nat 1
  let silence ← Parse.within 1 5 60
  pure { divisor := ⟨a, b, c, d, e⟩, silence }

/-- Area 2: scale (R20). -/
def scaleArea : Parse ScaleConfig := do
  let span ← Parse.within 3 1 16777215
  let calZero ← Parse.int 3
  let division ← (Parse.nat 1).such fun d => d == 5 || d == 10 || d == 20 || d == 50
  let capacity ← Parse.within 3 10000 120000
  pure { span, calZero, division, capacity }

/-- One entry of area 3 (R50). -/
def commodityEntry : Parse Commodity := do
  let name ← Parse.text
  let base ← Parse.within 2 0 300
  let safeMoisture ← Parse.within 2 base 350
  let handling ← Parse.within 1 0 100
  let configured ← Parse.flag
  pure { name, base, safeMoisture, handling, configured }

/-- Area 3: the commodity table (R50). -/
def commodityArea : Parse (Vector Commodity 8) := commodityEntry.times 8

/-- The kind of a bin (R73). -/
def binKindOf : Nat → Option BinKind
  | 0 => some .storage
  | 1 => some .wet
  | _ => none

/-- Area 4: locations (section 5.1, R73). -/
def locationArea : Parse LocationConfig := do
  let pits ← (Parse.within 2 10000 60000).times 2
  let bins ← Parse.times (do
    let k ← Parse.code 1 binKindOf
    let c ← Parse.within 3 50000 8000000
    pure (k, c)) 28
  pure { pits, bins }

/-- One entry of area 5 as stored (R98; log entry 24). -/
structure RouteEntry where
  number : Nat
  source : Nat
  dest : Nat
  stations : Nat
  drainAllowance : Nat
  drainTime : Nat
  segments : List Nat
deriving DecidableEq, Repr

/-- The set of permitted stations: a bit for each of Office, Dryer, Yard and Dock at its port number. -/
def stationSet (n : Nat) : Option (List Port) :=
  if n < 32 ∧ n / 2 % 2 = 0 then
    some ([Port.office, .dryer, .yard, .dock].filter fun p => n / 2 ^ portNo p % 2 == 1)
  else none

/-- One entry of area 5 (R98). -/
def routeEntry : Parse RouteEntry := do
  let number ← Parse.within 1 1 40
  let source ← Parse.nat 1
  let dest ← Parse.nat 1
  let stations ← (Parse.nat 1).such fun n => (stationSet n).isSome
  let drainAllowance ← Parse.nat 2
  let drainTime ← Parse.nat 1
  let count ← Parse.nat 1
  let segments ← (Parse.nat 1).many count
  pure { number, source, dest, stations, drainAllowance, drainTime, segments }

/-- A source of a route (R98). -/
def sourceLoc : Loc → Bool
  | .bin _ | .pit _ | .dryer => true
  | .berth | .reject => false

/-- A destination of a route (R98). -/
def destLoc : Loc → Bool
  | .bin _ | .dryer | .berth | .reject => true
  | .pit _ => false

/-- Whether a location is a bin. -/
def Loc.isBin : Loc → Bool
  | .bin _ => true
  | _ => false

/-- The route of an entry, when the entry is configured (R98). -/
def RouteEntry.route (e : RouteEntry) : Option Route :=
  match Loc.ofNumber e.source, Loc.ofNumber e.dest, e.segments.mapM segOf, stationSet e.stations with
  | some source, some dest, some segments, some stations =>
    if sourceLoc source && destLoc dest && (source != dest || source.isBin)
        && decide (1 ≤ segments.length ∧ segments.length ≤ 6) && decide segments.Nodup
        && decide (e.drainAllowance ≤ 5000) && decide (10 ≤ e.drainTime ∧ e.drainTime ≤ 120) then
      some { number := e.number, source, dest, segments, stations, drainAllowance := e.drainAllowance,
             drainTime := e.drainTime }
    else none
  | _, _, _, _ => none

/-- The first entry of each number counts (log entry 24). -/
def firstEntries : List Nat → List RouteEntry → List RouteEntry
  | _, [] => []
  | seen, e :: es => if seen.contains e.number then firstEntries seen es else e :: firstEntries (e.number :: seen) es

/-- Area 5: segments and routes (R98). -/
def routeArea (bs : List Byte) : Option (List Route) :=
  (Parse.untilEnd routeEntry bs.length bs).map fun es => (firstEntries [] es).filterMap RouteEntry.route

/-- Area 6: the cable map and the poll cycle period (R134). -/
def cableArea : Parse CableConfig := do
  let period ← Parse.within 2 60 900
  let cables ← Parse.times (do
    let count ← Parse.within 1 0 3
    (Parse.nat 1).many count) 28
  pure { period, cables }

/-- The class of an attribute (R144). -/
def attrClassOf : Nat → Option AttrClass
  | 0 => some .off
  | 1 => some .advisory
  | 2 => some .critical
  | _ => none

/-- The constants of one attribute (R142). -/
def attrEntryArea : Parse AttrConfig := do
  let start ← Parse.int 2
  let full ← Parse.int 2
  let threshold ← Parse.nat 1
  let cls ← Parse.code 1 attrClassOf
  pure { start, full, threshold, cls }

/-- Area 7: attributes and the act-on-advisory flag (R142). -/
def attributeArea : Parse AttributeConfig := do
  let hottest ← attrEntryArea
  let rise ← attrEntryArea
  let age ← attrEntryArea
  let failed ← attrEntryArea
  let actOnAdvisory ← Parse.flag
  pure { hottest, rise, age, failed, actOnAdvisory }

/-- Area 8: berth constants (R61, R64, R68, R146). -/
def berthArea : Parse BerthConfig := do
  let datum ← Parse.intWithin 2 (-1000) 1000
  let clearance ← Parse.within 1 0 100
  let trimBand ← Parse.within 3 10000 200000
  let tolerance ← Parse.within 1 5 50
  let fraction ← Parse.within 1 25 100
  pure { datum, clearance, trimBand, tolerance, fraction }

/-! ### The header (section 10.1) -/

/-- What the header says of one area: its first store byte, its room and its length. -/
structure AreaEntry where
  addr : Nat
  room : Nat
  length : Nat
deriving DecidableEq, Repr

/-- The bytes of the header in the store. -/
def Store.header (m : Store) : List Byte := m.slice 0 49

/-- The header passes its check (R168). -/
def headerGood (h : List Byte) : Bool := sumBytes h == 0

/-- The header's entry of area `a` (section 10.1). -/
def areaEntry (h : List Byte) (a : Nat) : AreaEntry :=
  let at_ (k : Nat) : Nat := beVal ((h.drop k).take 2)
  { addr := 8 * at_ (6 * a - 6), room := at_ (6 * a - 4), length := at_ (6 * a - 2) }

/-- The place of an area in the image is sound: its length is 1 to its room, and its room lies behind the
header and within the image (R168). -/
def AreaEntry.sound (e : AreaEntry) : Bool :=
  decide (1 ≤ e.length ∧ e.length ≤ e.room) && decide (49 ≤ e.addr ∧ e.addr + e.room ≤ 0x4000)

/-- The bytes of area `a` before its check byte; absent when the header or the area's place or check fails
(R168). -/
def Store.areaBytes (m : Store) (a : Nat) : Option (List Byte) :=
  let h := m.header
  let e := areaEntry h a
  if headerGood h && e.sound then
    let bs := m.slice e.addr e.length
    if sumBytes bs = 0 then some bs.dropLast else none
  else none

/-- The configuration the store holds: each area that passes (R168). -/
def Store.config (m : Store) : Cfg :=
  { link := (m.areaBytes 1).bind linkArea.all
    scale := (m.areaBytes 2).bind scaleArea.all
    commodities := (m.areaBytes 3).bind commodityArea.all
    locations := (m.areaBytes 4).bind locationArea.all
    routes := (m.areaBytes 5).bind routeArea
    cables := (m.areaBytes 6).bind cableArea.all
    attributes := (m.areaBytes 7).bind attributeArea.all
    berth := (m.areaBytes 8).bind berthArea.all }

/-- GOOD or FAILED (R168). -/
def loadStatus (b : Bool) : LoadStatus := if b then .good else .failed

/-- The load statuses of the header and of areas 1 to 8 (R168). -/
def loadStatuses (header : Bool) (c : Cfg) : Vector LoadStatus 9 :=
  #v[loadStatus header, loadStatus c.link.isSome, loadStatus c.scale.isSome, loadStatus c.commodities.isSome,
     loadStatus c.locations.isSome, loadStatus c.routes.isSome, loadStatus c.cables.isSome,
     loadStatus c.attributes.isSome, loadStatus c.berth.isSome]

/-- Whether every area passed (R168). -/
def Cfg.complete (c : Cfg) : Bool :=
  c.link.isSome && c.scale.isSome && c.commodities.isSome && c.locations.isSome && c.routes.isSome
    && c.cables.isSome && c.attributes.isSome && c.berth.isSome

/-! ### Handing the areas over (R73, R134, R168) -/

/-- A node at start-up (R153). -/
def Node.start (addr : Nat) (bin : BinIx) (cable : Nat) : Node :=
  { addr, bin, cable, noAnswer := 0, silent := false, points := Vector.replicate 8 Point.start }

/-- The configured nodes of a list of (address, bin, cable) entries: an address out of range, or one an
earlier entry holds, is left out (R134). -/
def configuredNodes : List Nat → List (Nat × BinIx × Nat) → List Node
  | _, [] => []
  | seen, (a, i, k) :: es =>
    if 0x10 ≤ a ∧ a ≤ 0x6F ∧ !seen.contains a then Node.start a i k :: configuredNodes (a :: seen) es
    else configuredNodes (a :: seen) es

/-- The cable entries in bin order and then cable order (R134). -/
def CableConfig.entries (c : CableConfig) : List (Nat × BinIx × Nat) :=
  (List.finRange 28).flatMap fun i => c.cables[i].zipIdx.map fun (a, k) => (a, i, k + 1)

/-- The locations of the area are handed to the INV: records at their creation with their kind and capacity
(R73, R172). -/
def Inv.locate (v : Inv) (c : LocationConfig) : Inv :=
  { v with
    bins := c.bins.map fun (k, cap) => BinRec.created k cap
    pits := c.pits.map PitRec.created }

/-- A configuration is handed to the blocks that read it (R168). -/
def State.takeConfig (s : State) (c : Cfg) : State :=
  { s with
    cfg := c
    inv := match c.locations with | some l => s.inv.locate l | none => s.inv
    cdm := match c.cables with
      | some x => { s.cdm with nodes := configuredNodes [] x.entries }
      | none => s.cdm
    rsc := { s.rsc with status := loadStatuses (headerGood s.rsc.store.header) c } }

/-- The ring and the count stand with the events logged before them (R181). -/
def Evr.stand (r : Evr) (ring : List Event) (count : Nat) : Evr := { r with ring, count, standing := true }

/-- The held events enter the ring at its newest end, each with the time it was logged at; then the ring and the
sequence counters are handed over, held events or none (R181). -/
def Ev.enterHeld (e : Ev) : Ev :=
  let e := e.map fun s =>
    { s with evr := s.evr.held.foldl (fun r x => r.enter x.time x.kind x.subject x.value) { s.evr with held := [] } }
  (e.enqueue ⟨.ring, 0⟩).enqueue ⟨.counters, 0⟩

/-- The meaning of CONFIGURATION LOADED: step 2 of start-up ends (R168, R175, R181). -/
def execConfigurationLoaded (s : State) : Result :=
  if s.phase = .loadConfig then
    let s := s.takeConfig s.rsc.store.config
    if s.cfg.complete then .next { s with phase := .loadMirror }
    else
      let s := { s with phase := .configFault, evr := s.evr.stand [] 0 }
      .next (s.event Ev.enterHeld)
  else .next s

end Sys2Proof.Machine
end

