-- ==== Sys2Proof/Machine/Mirror.lean ====
section
/-! DEFINITION. The mirror: its slots and the body of each kind of slot, written and read (section 10.2). The
order of the fields in a body follows the list of the owner's chapter (R171); what that leaves open is log
entry 9. -/
namespace Sys2Proof.Machine

/-- A field of `w` bytes; a free value when the figure is wider (log entry 11). -/
def beFit (w n : Nat) : List Byte := be w (if n < 256 ^ w then n else Config.wideField w n)

/-- A byte that is 1 when `b` holds. -/
def flagByte (b : Bool) : List Byte := u8 (bit 0 b)

/-- A count byte and that many lots. -/
def lotBytes (lots : List Nat) : List Byte := u8 lots.length ++ lots.flatMap u16

/-- A number 1 to 65535. -/
def Parse.number : Parse Nat := Parse.within 2 1 65535

/-- A lot list of at most `room` lots. -/
def Parse.lots (room : Nat) : Parse (List Nat) := do
  let n ← Parse.within 1 0 room
  Parse.number.many n

/-- A terminal time or a mass: four bytes. -/
def Parse.u32 : Parse Nat := Parse.nat 4

/-! ### Slots (R171) -/

/-- The slot kinds in the order of the first table of section 10.2. -/
def SlotKind.all : List SlotKind :=
  [.bin, .pit, .ticket, .lot, .batchList, .berth, .balance, .counters, .condition, .survey, .ring, .running]

/-- How many slots a kind has (section 10.2). -/
def SlotKind.slots : SlotKind → Nat
  | .bin => 28 | .pit => 2 | .ticket => 12 | .lot => 400 | .batchList => 1 | .berth => 1 | .balance => 1
  | .counters => 1 | .condition => 28 | .survey => 1 | .ring => 1 | .running => 1

/-- The slot length of a kind (R171). -/
def SlotKind.length : SlotKind → Nat
  | .bin => 512 | .pit => 64 | .ticket => 128 | .lot => 64 | .batchList => 384 | .berth => 512 | .balance => 64
  | .counters => 16 | .condition => 16 | .survey => 512 | .ring => 1040 | .running => 48

/-- Whether a kind's records carry a revision (R10). -/
def SlotKind.revisioned : SlotKind → Bool
  | .bin | .pit | .ticket | .lot | .batchList | .berth => true
  | .balance | .counters | .condition | .survey | .ring | .running => false

/-- Store bytes taken by kinds standing before a kind in a list of kinds. -/
def bytesBefore (k : SlotKind) : List SlotKind → Nat
  | [] => 0
  | x :: xs => if x = k then 0 else x.slots * x.length + bytesBefore k xs

/-- The store byte a slot begins at (R171). -/
def SlotId.addr (id : SlotId) : Nat := 0x4000 + bytesBefore id.kind SlotKind.all + id.pos * id.kind.length

/-- The bytes of a slot up to its check byte (section 10.2). -/
def slotHead (kind : SlotKind) (index state rev : Nat) (body : List Byte) : List Byte :=
  let inner := u8 kind.code ++ u16 index ++ u8 state ++ u16 rev ++ u16 body.length ++ body
  inner ++ [checkByte inner]

/-- A whole slot: the bytes beyond the check byte are 0xFF (R171). -/
def slotImage (kind : SlotKind) (index state rev : Nat) (body : List Byte) : List Byte :=
  let bs := slotHead kind index state rev body
  bs ++ List.replicate (kind.length - bs.length) 0xFF

/-- How a slot is judged (R172). `vacant` is a slot whose state is empty. -/
inductive Judged (α : Type) where
  | blank
  | bad
  | vacant
  | record (rev : Nat) (body : α)
deriving DecidableEq, Repr

/-- Judge the bytes of a slot (R172; log entry 9). -/
def judgeSlot {α : Type} (kind : SlotKind) (p : Parse α) (bs : List Byte) : Judged α :=
  let rev := beVal ((bs.drop 4).take 2)
  let len := beVal ((bs.drop 6).take 2)
  let state := beVal ((bs.drop 3).take 1)
  if bs.all (· == 0xFF) then .blank
  else if beVal (bs.take 1) ≠ kind.code ∨ len > kind.length - 9 ∨ sumBytes (bs.take (len + 9)) ≠ 0 then .bad
  else if state = 0 then .vacant
  else if state ≠ 1 ∨ (kind.revisioned = true ∧ rev = 0) then .bad
  else match p.all ((bs.drop 8).take len) with
    | some x => .record rev x
    | none => .bad

/-! ### Locations (R75, R78) -/

/-- A layer as the mirror holds it (R78). -/
def Layer.mirror (l : Layer) : List Byte :=
  u16 l.number ++ u32 l.mass ++ u16 l.moisture ++ u8 l.grade ++ u8 l.origin.code ++ u32 l.fillTime
    ++ lotBytes l.lots ++ flagByte l.untraced

/-- The origin of a code (R77). -/
def originOfCode : Nat → Option Origin
  | 0 => some .intake
  | 1 => some .dryer
  | 2 => some .rotation
  | 3 => some .survey
  | _ => none

/-- A layer of the mirror (R78). -/
def Parse.layer : Parse Layer := do
  let number ← Parse.number
  let mass ← Parse.within 4 1 0xFFFFFFFF
  let moisture ← Parse.within 2 0 350
  let grade ← Parse.within 1 1 5
  let origin ← Parse.code 1 originOfCode
  let fillTime ← Parse.u32
  let lots ← Parse.lots 6
  let untraced ← Parse.flag
  pure { number, mass, moisture, grade, origin, fillTime, lots, untraced }

/-- The level of a code (section 5.2). -/
def levelOf : Nat → Option Level
  | 0 => some .normal
  | 1 => some .advisory
  | 2 => some .critical
  | _ => none

/-- The hold of a code and a port (R75). -/
def holdOf (code : Nat) (p : Port) : Option (Option Hold) :=
  match code with
  | 0 => some none
  | 1 => some (some ⟨.standard, p⟩)
  | 2 => some (some ⟨.strict, p⟩)
  | _ => none

/-- A claim number in a record, 0 when absent. -/
def claimOf (n : Nat) : Option Nat := if n = 0 then none else some n

/-- The body of a bin slot (R75). -/
def BinRec.mirror (b : BinRec) (i : BinIx) : List Byte :=
  u8 (i.val + 1) ++ u8 b.kind.code ++ u32 b.capacity ++ u32 b.ceiling ++ u8 (bit 0 b.retained)
    ++ u8 (b.commodity.getD 0) ++ u8 b.layers.length ++ b.layers.flatMap Layer.mirror ++ u16 b.layerCtr
    ++ u32 b.mass ++ u16 b.mean ++ u8 b.worst ++ u8 (holdCode b.hold) ++ u8 (holdPort b.hold) ++ u8 b.level.code
    ++ u8 (locationFlags b.locked b.unverified b.overfill b.untraced b.commodity.isSome)
    ++ u8 (b.inbound.getD 0) ++ u8 (b.outbound.getD 0)

/-- A bin of the mirror (R75). Its revision is the slot's. -/
def Parse.bin : Parse BinRec := do
  let _ ← Parse.within 1 1 28
  let kind ← Parse.code 1 binKindOf
  let capacity ← Parse.within 4 50000 8000000
  let ceiling ← Parse.within 4 0 capacity
  let retained ← Parse.flag
  let commodity ← Parse.within 1 0 7
  let n ← Parse.within 1 0 12
  let layers ← Parse.layer.many n
  let layerCtr ← Parse.nat 2
  let _ ← Parse.u32
  let _ ← Parse.within 2 0 350
  let _ ← Parse.within 1 0 5
  let code ← Parse.within 1 0 2
  let port ← Parse.code 1 portOf
  let level ← Parse.code 1 levelOf
  let flags ← Parse.within 1 0 31
  let inbound ← Parse.nat 1
  let outbound ← Parse.nat 1
  pure { kind, capacity, ceiling, retained, locked := flags % 2 == 1,
         commodity := if layers = [] then none else some commodity, layers, layerCtr,
         hold := (holdOf code port).getD none, level, unverified := flags / 2 % 2 == 1,
         overfill := flags / 4 % 2 == 1, inbound := claimOf inbound, outbound := claimOf outbound, rev := 1 }

/-- The body of a pit slot (R75). DESIGN CHOICE: the pit's own layer counter, which the list of R75 does not name, stands
last (R78, R95; log entry 9). -/
def PitRec.mirror (b : PitRec) (i : PitIx) : List Byte :=
  u8 (i.val + 29) ++ u32 b.capacity ++ u8 b.state.code ++ u16 b.state.ticket ++ u8 b.layers.length
    ++ b.layers.flatMap Layer.mirror ++ u8 (b.commodity.getD 0)
    ++ u8 (locationFlags false b.unverified b.overfill false b.commodity.isSome) ++ u8 (b.outbound.getD 0)
    ++ u16 b.layerCtr

/-- The state of a pit of a code and a ticket number (R75). -/
def pitStateOf (code ticket : Nat) : Option PitState :=
  match code with
  | 0 => some .empty
  | 1 => if ticket = 0 then none else some (.receiving ticket)
  | 2 => some .loaded
  | _ => none

/-- A pit of the mirror (R75). -/
def Parse.pit : Parse PitRec := do
  let _ ← Parse.within 1 29 30
  let capacity ← Parse.within 4 10000 60000
  let code ← Parse.nat 1
  let ticket ← Parse.nat 2
  let n ← Parse.within 1 0 1
  let layers ← Parse.layer.many n
  let commodity ← Parse.within 1 0 7
  let flags ← Parse.within 1 0 31
  let outbound ← Parse.nat 1
  let layerCtr ← Parse.nat 2
  match pitStateOf code ticket with
  | some state =>
    pure { capacity, state, layer := layers.head?, layerCtr, commodity := if layers = [] then none else some commodity,
           unverified := flags / 2 % 2 == 1, overfill := flags / 4 % 2 == 1, outbound := claimOf outbound, rev := 1 }
  | none => failure

/-! ### Tickets and lots (R36, R47) -/

/-- The body of a ticket slot (R36). -/
def Ticket.mirror (t : Ticket) : List Byte :=
  let gross := t.gross.getD ⟨0, 0⟩
  let sample := t.sample.getD ⟨0, false, 0⟩
  u16 t.number ++ textField t.plate ++ u8 t.commodity ++ u8 (t.presence false) ++ u32 gross.mass ++ u32 gross.time
    ++ u16 sample.moisture ++ u8 sample.grade ++ u8 (pitNumber t.pit) ++ u8 t.state.code

/-- The ticket state of a code; CLOSED is not a state of the table (section 3.1). -/
def ticketStateOf : Nat → Option TicketState
  | 0 => some .opened
  | 1 => some .weighedIn
  | 2 => some .sampled
  | 3 => some .assigned
  | 4 => some .dumped
  | _ => none

/-- A ticket of the mirror (R36). Its position and revision are the slot's. -/
def Parse.ticket : Parse Ticket := do
  let number ← Parse.number
  let plate ← Parse.text
  let commodity ← Parse.within 1 0 7
  let presence ← Parse.within 1 0 15
  let mass ← Parse.u32
  let time ← Parse.u32
  let moisture ← Parse.within 2 0 350
  let grade ← Parse.within 1 0 5
  let pit ← Parse.within 1 0 2
  let state ← Parse.code 1 ticketStateOf
  let hasSample := presence / 2 % 2 == 1
  if (hasSample && grade == 0) || (presence / 8 % 2 == 1) != (pit != 0) then failure
  else
    pure { pos := 0, number, state, commodity, plate,
           gross := if presence % 2 = 1 then some ⟨mass, time⟩ else none,
           sample := if hasSample then some ⟨moisture, presence / 4 % 2 == 1, grade⟩ else none,
           pit := pitOf pit, rev := 1 }

/-- The body of a lot slot (R47). -/
def Lot.mirror (l : Lot) : List Byte :=
  u16 l.number ++ u8 (if l.damaged then 3 else 0) ++ u8 l.commodity ++ u8 l.grade ++ u32 l.net ++ u16 l.moisture
    ++ flagByte l.estimated ++ u32 l.standard ++ u32 l.waterShrink ++ u32 l.handlingShrink ++ flagByte l.wet
    ++ u32 l.intakeTime ++ u16 l.refs

/-- A lot of the mirror (R47). Its position and revision are the slot's. -/
def Parse.lot : Parse Lot := do
  let number ← Parse.number
  let state ← (Parse.nat 1).such fun n => n == 0 || n == 3
  let commodity ← Parse.within 1 0 7
  let grade ← Parse.within 1 0 5
  let net ← Parse.u32
  let moisture ← Parse.within 2 0 350
  let estimated ← Parse.flag
  let standard ← Parse.u32
  let waterShrink ← Parse.u32
  let handlingShrink ← Parse.u32
  let wet ← Parse.flag
  let intakeTime ← Parse.u32
  let refs ← Parse.within 2 0 400
  if state = 0 ∧ grade = 0 then failure
  else
    pure { pos := 0, number, damaged := state == 3, commodity, grade, wet, estimated, net, moisture, standard,
           waterShrink, handlingShrink, intakeTime, refs, rev := 1 }

/-! ### Batch list and berth (R122, R154) -/

/-- A batch as the mirror holds it (R122). DESIGN CHOICE: the moisture sum takes 6 bytes (log entry 9). -/
def Batch.mirror (b : Batch) : List Byte :=
  u16 b.number ++ u8 b.state.code ++ u32 b.inMass ++ beFit 6 b.inSum ++ u8 b.grade ++ lotBytes b.lots
    ++ flagByte b.untraced ++ u32 b.outMass ++ u16 b.outMoisture ++ u32 b.remaining ++ flagByte b.underdried
    ++ u32 b.fillTime ++ u32 b.closeTime ++ u32 b.outTime

/-- The batch state of a code (R125). -/
def batchStateOf : Nat → Option BatchState
  | 0 => some .filling
  | 1 => some .drying
  | 2 => some .dried
  | _ => none

/-- A batch of the mirror (R122). A FILLING batch may have an in mass of 0, and then any grade, since R133 removes
one; any other batch has an in mass of 1 or more (log entry 9). -/
def Parse.batch : Parse Batch := do
  let number ← Parse.number
  let state ← Parse.code 1 batchStateOf
  let inMass ← Parse.within 4 (if state = .filling then 0 else 1) 0xFFFFFFFF
  let inSum ← Parse.nat 6
  let grade ← Parse.within 1 (if inMass = 0 then 0 else 1) 5
  let lots ← Parse.lots 6
  let untraced ← Parse.flag
  let outMass ← Parse.u32
  let outMoisture ← Parse.within 2 0 350
  let remaining ← Parse.u32
  let underdried ← Parse.flag
  let fillTime ← Parse.u32
  let closeTime ← Parse.u32
  let outTime ← Parse.u32
  pure { number, state, inMass, inSum, grade, lots, untraced, outMass, outMoisture, remaining, underdried, fillTime,
         closeTime, outTime }

/-- The body of the batch list slot (R122 to R124). -/
def Dru.mirror (d : Dru) : List Byte :=
  u8 d.batches.length ++ d.batches.flatMap Batch.mirror ++ flagByte d.commodity.isSome ++ u8 (d.commodity.getD 0)
    ++ u16 d.counter

/-- The batch list of the mirror (R122 to R124). -/
def Parse.dru : Parse Dru := do
  let n ← Parse.within 1 0 6
  let batches ← Parse.batch.many n
  let present ← Parse.flag
  let commodity ← Parse.within 1 0 7
  let counter ← Parse.nat 2
  pure { batches, commodity := if present then some commodity else none, counter, rev := 1 }

/-- A barge hold as the mirror holds it (R154). DESIGN CHOICE: the moisture sum takes 6 bytes (log entry 9). -/
def BargeHold.mirror (h : BargeHold) : List Byte :=
  u32 h.target ++ u32 h.loaded ++ beFit 6 h.sum ++ u8 (h.grade.getD 0) ++ lotBytes h.lots ++ flagByte h.untraced

/-- A barge hold of the mirror (R154). -/
def Parse.hold : Parse BargeHold := do
  let target ← Parse.u32
  let loaded ← Parse.u32
  let sum ← Parse.nat 6
  let grade ← Parse.within 1 0 5
  let lots ← Parse.lots 16
  let untraced ← Parse.flag
  pure { target, loaded, sum, grade := if grade = 0 then none else some grade, lots, untraced }

/-- The body of the berth slot (R154). -/
def Btu.mirror (b : Btu) : List Byte :=
  u8 b.state.code ++ textField b.bargeId ++ u8 b.commodity ++ u16 b.maxMoisture ++ u8 b.worstGrade ++ u16 b.hullMax
    ++ u16 b.lightDraft ++ u32 b.tpc ++ u8 b.holds.length ++ b.holds.flatMap BargeHold.mirror
    ++ flagByte b.stage.isSome ++ u16 (b.stage.getD 0) ++ u32 b.stageTime ++ flagByte b.fresh ++ u32 b.ceiling
    ++ u32 b.berthTime ++ u32 b.closeTime

/-- The berth state of a code (R156). -/
def berthStateOf : Nat → Option BerthState
  | 0 => some .empty
  | 1 => some .planned
  | 2 => some .closedManifest
  | _ => none

/-- The berth of the mirror; the plan's fields may be 0 while it is EMPTY (R154). -/
def Parse.btu : Parse Btu := do
  let state ← Parse.code 1 berthStateOf
  let least (n : Nat) : Nat := if state = .empty then 0 else n
  let bargeId ← Parse.text
  let commodity ← Parse.within 1 0 7
  let maxMoisture ← Parse.within 2 0 350
  let worstGrade ← Parse.within 1 (least 1) 5
  let hullMax ← Parse.within 2 (least 50) 600
  let lightDraft ← Parse.within 2 0 200
  let tpc ← Parse.within 4 (least 1000) 50000
  let n ← Parse.within 1 (least 2) 6
  let holds ← Parse.hold.many n
  let present ← Parse.flag
  let stage ← Parse.within 2 0 3000
  let stageTime ← Parse.u32
  let fresh ← Parse.flag
  let ceiling ← Parse.within 4 0 30000000
  let berthTime ← Parse.u32
  let closeTime ← Parse.u32
  pure { state, bargeId, commodity, maxMoisture, worstGrade, hullMax, lightDraft, tpc, holds,
         stage := if present then some stage else none, stageTime, fresh, timer := none, ceiling, berthTime,
         closeTime, rev := 1 }

/-! ### Balance, counters, condition (R92, R37, R178, section 8) -/

/-- The body of the balance slot (R92). -/
def Balance.mirror (b : Balance) : List Byte :=
  s64 b.received ++ s64 b.shipped ++ s64 b.rejected ++ s64 b.dryingLoss ++ s64 b.adjustments ++ flagByte b.isOpen

/-- The balance of the mirror (R92). -/
def Parse.balance : Parse Balance := do
  let received ← Parse.int 8
  let shipped ← Parse.int 8
  let rejected ← Parse.int 8
  let dryingLoss ← Parse.int 8
  let adjustments ← Parse.int 8
  let isOpen ← Parse.flag
  pure { received, shipped, rejected, dryingLoss, adjustments, isOpen }

/-- The body of the sequence counters slot: the ticket counter and the plant event count. -/
def countersMirror (ticket count : Nat) : List Byte := u16 ticket ++ u32 count

/-- The sequence counters of the mirror. -/
def Parse.counters : Parse (Nat × Nat) := do
  let ticket ← Parse.nat 2
  let count ← Parse.u32
  pure (ticket, count)

/-- What a condition record retains (section 8, introduction). -/
structure ConditionRecord where
  level : Level
  order : Order
  hottest : Nat
  rise : Nat
deriving DecidableEq, Repr

/-- The body of a condition slot, HOTTEST and RISE as they stood at the last change of level or order (R153). -/
def BinCondition.mirror (b : BinCondition) : List Byte :=
  u8 b.level.code ++ u8 b.order.code ++ u8 b.savedHottest ++ u8 b.savedRise

/-- The order of a code (R145). -/
def orderOf : Nat → Option Order
  | 0 => some .none
  | 1 => some .ordered
  | 2 => some .inProgress
  | _ => none

/-- A condition record of the mirror. -/
def Parse.condition : Parse ConditionRecord := do
  let level ← Parse.code 1 levelOf
  let order ← Parse.code 1 orderOf
  let hottest ← Parse.within 1 1 100
  let rise ← Parse.within 1 1 100
  pure { level, order, hottest, rise }

/-! ### Surveys (sections 8.8, 8.9) -/

/-- A running survey as the mirror holds it, the node in hand with its attempt after the list of scope nodes
(section 8.8). -/
def SurveyRun.mirror (r : SurveyRun) : List Byte :=
  u8 r.number ++ u8 (portNo r.port) ++ u8 r.spans.length ++ spanBytes r.spans ++ u32 r.startTime
    ++ u8 r.nodes.length ++ r.nodes.flatMap u8 ++ u8 (r.todo.headD 0) ++ u8 r.attempt ++ u8 r.todo.length
    ++ failBytes r.silentAt ++ failBytes r.failedAt ++ failBytes r.suspectAt

/-- The body of the survey slot: the log, the counter and the running survey. -/
def Cdm.surveyMirror (c : Cdm) : List Byte :=
  u8 c.log.length ++ c.log.flatMap SurveyEntry.bytes ++ u8 c.surveyCtr ++ flagByte c.survey.isSome
    ++ (match c.survey with | some r => r.mirror | none => [])

/-- The first `n` pairs of eight span bytes (section 8.9). -/
def spansOf (n : Nat) (xs : List Nat) : Option Spans :=
  (List.range n).mapM fun k =>
    match binOf (xs.getD (2 * k) 0), binOf (xs.getD (2 * k + 1) 0) with
    | some a, some b => some (a, b)
    | _, _ => none

/-- A span count and eight span bytes. -/
def Parse.spans : Parse Spans := do
  let n ← Parse.within 1 0 4
  let xs ← (Parse.within 1 0 28).many 8
  match spansOf n xs with
  | some s => pure s
  | none => failure

/-- A failing location; all zero is none (section 8.9). -/
def Parse.loc : Parse (Option FailLoc) := do
  let b ← Parse.within 1 0 28
  let cable ← Parse.within 1 0 3
  let point ← Parse.within 1 0 8
  pure ((binOf b).map fun bin => ⟨bin, cable, point⟩)

/-- The survey status of a code (section 8.9). -/
def surveyStatusOf : Nat → Option SurveyStatus
  | 0 => some .completedOk
  | 1 => some .aborted
  | 2 => some .interrupted
  | 3 => some .failedPoint
  | 4 => some .suspectPoint
  | 5 => some .nodeSilent
  | _ => none

/-- One survey log entry of the mirror (section 8.9). -/
def Parse.entry : Parse SurveyEntry := do
  let number ← Parse.within 1 1 255
  let status ← Parse.code 1 surveyStatusOf
  let _ ← Parse.within 1 0 3
  let startTime ← Parse.u32
  let endTime ← Parse.u32
  let spans ← Parse.spans
  let loc ← Parse.loc
  pure { number, status, startTime, endTime, spans, loc }

/-- A running survey of the mirror (section 8.8). -/
def Parse.run : Parse SurveyRun := do
  let number ← Parse.within 1 1 255
  let port ← Parse.code 1 portOf
  let spans ← Parse.spans
  let startTime ← Parse.u32
  let n ← Parse.within 1 0 84
  let nodes ← (Parse.within 1 0x10 0x6F).many n
  let _ ← Parse.within 1 0x10 0x6F
  let attempt ← Parse.within 1 1 2
  let left ← Parse.within 1 0 n
  let silentAt ← Parse.loc
  let failedAt ← Parse.loc
  let suspectAt ← Parse.loc
  pure { number, port, spans, startTime, nodes, todo := nodes.drop (n - left), attempt, wait := none, silentAt,
         failedAt, suspectAt }

/-- The survey slot of the mirror: the log, the counter and the running survey. -/
def Parse.survey : Parse (List SurveyEntry × Nat × Option SurveyRun) := do
  let n ← Parse.within 1 0 8
  let log ← Parse.entry.many n
  let counter ← Parse.nat 1
  let running ← Parse.flag
  if running then do
    let r ← Parse.run
    pure (log, counter, some r)
  else pure (log, counter, none)

/-! ### Event ring and running transfers (R178, R121) -/

/-- The body of the event ring slot (R178). -/
def Evr.mirror (r : Evr) : List Byte := u8 r.ring.length ++ r.ring.flatMap Event.entry

/-- The event kind of a code (R179). -/
def eventKindOf (n : Nat) : Option EventKind :=
  [EventKind.zeroDrift, .bridgeStale, .segmentFault, .trip, .overrun, .shortfall, .overfill, .dryerDiscrepancy,
   .conditionChange, .rotationOrder, .cableSilent, .surveyEnd, .stationSilent, .mirrorFault, .interrupted,
   .holdPlaced, .holdLifted, .lotUntraced].find? (·.code == n)

/-- `x` when `n` lies in a range. -/
def inRange (lo hi n : Nat) (x : Subject) : Option Subject := if lo ≤ n ∧ n ≤ hi then some x else none

/-- The subject of a type and a number; absent when the number is out of the type's range (R172, R178). -/
def subjectOf (type n : Nat) : Option Subject :=
  match type with
  | 0 => inRange 0 0 n .none
  | 1 => inRange 0 33 n (.location n)
  | 2 => inRange 1 20 n (.segment n)
  | 3 => inRange 1 65535 n (.lot n)
  | 4 => inRange 0x10 0x6F n (.node n)
  | 5 => inRange 0 4 n (.port n)
  | 6 => inRange 1 65535 n (.ticket n)
  | 7 => inRange 0 399 n (.slot n)
  | _ => none

/-- One event of the mirror (R178). -/
def Parse.event : Parse Event := do
  let seq ← Parse.within 4 1 0xFFFFFFFF
  let time ← Parse.u32
  let kind ← Parse.code 1 eventKindOf
  let type ← Parse.nat 1
  let n ← Parse.nat 2
  let value ← Parse.int 4
  match subjectOf type n with
  | some subject => pure { seq, time, kind, subject, value }
  | none => failure

/-- The event ring of the mirror (R178). -/
def Parse.ring : Parse (List Event) := do
  let n ← Parse.within 1 0 64
  Parse.event.many n

/-- The body of the running transfers slot (R121). -/
def runningMirror (xs : List (Nat × Loc)) : List Byte :=
  u8 xs.length ++ xs.flatMap fun x => u16 x.1 ++ u8 x.2.number

/-- The running transfers of the mirror; a source is a pit, a bin or the DRYER (R98, R121). -/
def Parse.running : Parse (List (Nat × Loc)) := do
  let n ← Parse.within 1 0 8
  Parse.many (do
    let x ← Parse.number
    let l ← (Parse.code 1 Loc.ofNumber).such (·.number ≤ 31)
    pure (x, l)) n

/-! ### The content of a slot (R173) -/

/-- Index, revision and body of a record, absent when the slot is to be written empty. -/
abbrev SlotContent := Option (Nat × Nat × List Byte)

/-- The content an owner gives for a slot when its write begins (R173). -/
def State.slotContent (s : State) (id : SlotId) : SlotContent :=
  match id.kind with
  | .bin => if h : id.pos < 28 then some (id.pos + 1, (s.bin ⟨id.pos, h⟩).rev, (s.bin ⟨id.pos, h⟩).mirror ⟨id.pos, h⟩) else none
  | .pit => if h : id.pos < 2 then some (id.pos + 1, (s.pit ⟨id.pos, h⟩).rev, (s.pit ⟨id.pos, h⟩).mirror ⟨id.pos, h⟩) else none
  | .ticket => (s.tlr.tickets.find? (·.pos == id.pos)).map fun t => (t.number, t.rev, t.mirror)
  | .lot => (s.tlr.lots.find? (·.pos == id.pos)).map fun l => (l.number, l.rev, l.mirror)
  | .batchList => some (0, s.dru.rev, s.dru.mirror)
  | .berth => some (0, s.btu.rev, s.btu.mirror)
  | .balance => some (0, 0, s.inv.balance.mirror)
  | .counters => some (0, 0, countersMirror s.tlr.counter s.evr.count)
  | .condition => if h : id.pos < 28 then some (id.pos + 1, 0, (s.cond ⟨id.pos, h⟩).mirror) else none
  | .survey => some (0, 0, s.cdm.surveyMirror)
  | .ring => some (0, 0, s.evr.mirror)
  | .running => some (0, 0, runningMirror s.rc.running)

/-- The bytes written for a slot (R171, R173). -/
def State.slotBytes (s : State) (id : SlotId) : List Byte :=
  match s.slotContent id with
  | some (index, rev, body) => slotImage id.kind index 1 rev body
  | none => slotImage id.kind 0 0 0 []

/-- The bytes of a slot in the store. -/
def Store.slot (m : Store) (id : SlotId) : List Byte := m.slice id.addr id.kind.length

/-- A slot of the store, judged (R172). -/
def Store.judge {α : Type} (m : Store) (id : SlotId) (p : Parse α) : Judged α := judgeSlot id.kind p (m.slot id)

end Sys2Proof.Machine
end

