-- ==== Sys2Proof/Machine/Store.lean ====
section
/-! DEFINITION. The Retained Store Controller at work: reading and writing configuration areas, the write-back
queue, store writes and their end (sections 10.1, 10.2). -/
namespace Sys2Proof.Machine

/-- The time limit of a store write, 100 ms (R169, R173). -/
def writeTime : Nat := 100

/-- Change the Retained Store Controller. -/
def Ev.modRsc (e : Ev) (f : Rsc → Rsc) : Ev := e.map fun s => { s with rsc := f s.rsc }

/-- Set the load status of the header (0) or of an area (R169). -/
def Rsc.setStatus (r : Rsc) (a : Fin 9) (x : LoadStatus) : Rsc := { r with status := upd r.status a fun _ => x }

/-- The store after a write that was cut off: what it left at the start of its range, and the bytes that
stood there beyond that (R169, R173; log entry 10). -/
def Store.torn (m : Store) (w : StoreWrite) (left : List Byte) : Store := m.write w.addr (left.take w.bytes.length)

/-! ### The store bus (R173, R174) -/

/-- The header with a new length for area `a` and its new check (R169). -/
def newHeader (h : List Byte) (a length : Nat) : List Byte :=
  let inner := h.take (6 * a - 2) ++ u16 length ++ (h.drop (6 * a)).take (48 - 6 * a)
  inner ++ [checkByte inner]

/-- Where a store write of a configuration write goes and its bytes, by the header as it stands when that
write begins: the bytes at the area's offset or at store byte 0, then the header with the new length (R169; log
entry 30). -/
def Store.configWrite (m : Store) (a : Fin 9) : ConfigStep → Nat × List Byte
  | .content bytes => (if a = 0 then 0 else (areaEntry m.header a).addr, bytes)
  | .header length => (0, newHeader m.header a length)

/-- The oldest configuration write begins its next store write when the bus is free (R173; log entry 30). -/
def Rsc.startJob (r : Rsc) (now : Nat) : Rsc :=
  match r.write, r.jobs with
  | none, j :: js =>
    match j.todo with
    | x :: rest =>
      let (addr, bytes) := r.store.configWrite j.area x
      { r with write := some { target := .config, addr, bytes, began := now }, jobs := { j with todo := rest } :: js }
    | [] => r
  | _, _ => r

/-- A configuration write is done: status WRITTEN, and the request is answered OK (R169). DESIGN CHOICE: that answer
gives the number of bytes staged too, in 2 bytes (log entry 16). -/
def Ev.jobDone (e : Ev) (j : ConfigJob) : Ev :=
  let e := e.modRsc fun r => { (r.setStatus j.area .written) with jobs := r.jobs.tail }
  match j.port with
  | some p => e.reply p .ok (u16 j.staged)
  | none => e

/-- A configuration write is abandoned: the staging is discarded, status WRITTEN, answered BUSY (R169). -/
def Ev.jobAbandoned (e : Ev) (j : ConfigJob) : Ev :=
  let e := e.modRsc fun r => { (r.setStatus j.area .written) with jobs := r.jobs.tail, staging := none }
  match j.port with
  | some p => e.reply p .busy []
  | none => e

/-- A store write of the oldest configuration write is reported done (R169). -/
def Ev.configWritten (e : Ev) : Ev :=
  match e.st.rsc.jobs with
  | j :: _ => if j.todo = [] then e.jobDone j else e
  | [] => e

/-- The write in progress is reported done: its bytes stand in the store (R173, R174). -/
def Ev.writeDone (e : Ev) (w : StoreWrite) : Ev :=
  let e := e.modRsc fun r => { r with store := r.store.write w.addr w.bytes, write := none }
  let e := match w.target with
    | .mirror _ => e.modRsc fun r => { r with faultLogged := false }
    | .config => e.configWritten
  let now := e.st.ms
  e.modRsc (·.startJob now)

/-- A slot write is abandoned after 100 ms: its identity joins the queue again and a MIRROR_FAULT is logged,
once until a later write completes (R173). While RESTART writes the queue out it is not tried again and
logs nothing (R175). -/
def Ev.mirrorAbandoned (e : Ev) (w : StoreWrite) (id : SlotId) (left : List Byte) : Ev :=
  let e := e.modRsc fun r => { r with store := r.store.torn w left, write := none }
  let e :=
    if e.st.phase = .restarting then e
    else
      let logged := e.st.rsc.faultLogged
      let e := (e.enqueue id).modRsc fun r => { r with faultLogged := true }
      if logged then e else e.log .mirrorFault .none 1
  let now := e.st.ms
  e.modRsc (·.startJob now)

/-- A store write of a configuration write is abandoned after 100 ms (R169). -/
def Ev.configAbandoned (e : Ev) (w : StoreWrite) (left : List Byte) : Ev :=
  let e := e.modRsc fun r => { r with store := r.store.torn w left, write := none }
  let e := match e.st.rsc.jobs with
    | j :: _ => e.jobAbandoned j
    | [] => e
  let now := e.st.ms
  e.modRsc (·.startJob now)

/-- The oldest identity leaves the queue and the write of its slot begins (R173). -/
def State.startMirrorWrite (s : State) : State :=
  match s.rsc.write, s.rsc.jobs, s.rsc.queue with
  | none, [], id :: rest =>
    { s with rsc := { s.rsc with
        queue := rest
        write := some { target := .mirror id, addr := id.addr, bytes := s.slotBytes id, began := s.ms } } }
  | _, _, _ => s

/-! ### READ CONFIGURATION AREA (R170) -/

/-- The area of a number 0 to 8. -/
def areaOf (n : Nat) : Option (Fin 9) := if h : n < 9 then some ⟨n, h⟩ else none

/-- Where an area stands and its stored length; the header is area 0 (R170). -/
def State.areaPlace (s : State) (a : Fin 9) : Nat × Nat :=
  if a = 0 then (0, 49)
  else
    let x := areaEntry s.rsc.store.header a
    (x.addr, x.length)

/-- READ CONFIGURATION AREA (R170). -/
def Ev.readConfig (p : Port) (body : List Byte) (e : Ev) : Ev :=
  match fields [1, 2, 1] body with
  | some [n, offset, count] =>
    match areaOf n with
    | none => e.reply p .range []
    | some a =>
      let (addr, length) := e.st.areaPlace a
      if count = 0 ∨ count > 200 ∨ offset + count > length then e.reply p .range []
      else
        e.reply p .ok (u8 e.st.rsc.status[a].code ++ u16 length ++ e.st.rsc.store.slice (addr + offset) count)
  | _ => e.reply p .range []

/-! ### WRITE CONFIGURATION AREA (R169) -/

/-- The store writes of a whole staging: for an area its bytes and then the header, for the header its
bytes (R169). -/
def configSteps (a : Fin 9) (bytes : List Byte) : List ConfigStep :=
  if a = 0 then [.content bytes] else [.content bytes, .header bytes.length]

/-- The staging a chunk would give; absent when the chunk does not stand at the end of the staging so far
(R169). -/
def Rsc.staged (r : Rsc) (a total offset : Nat) (chunk : List Byte) : Option Staging :=
  if offset = 0 then some ⟨a, total, chunk⟩
  else match r.staging with
    | some x =>
      if x.area = a ∧ x.total = total ∧ x.bytes.length = offset then some ⟨a, total, x.bytes ++ chunk⟩ else none
    | none => none

/-- The outcome of a WRITE CONFIGURATION AREA chunk at its owner (R169). -/
inductive ChunkResult where
  | refuse (code : Code)
  | stage (x : Staging)
  | write (a : Fin 9) (x : Staging)
deriving DecidableEq, Repr

/-- The checks of WRITE CONFIGURATION AREA (R169). -/
def State.judgeChunk (s : State) (n total offset : Nat) (chunk : List Byte) : ChunkResult :=
  match areaOf n with
  | none => .refuse .range
  | some a =>
    let h := s.rsc.store.header
    if a ≠ 0 ∧ !headerGood h then .refuse .badState
    else if (a = 0 ∧ total ≠ 49) ∨ (a ≠ 0 ∧ (total = 0 ∨ total > (areaEntry h a).room)) then .refuse .range
    else if offset + chunk.length > total then .refuse .range
    else match s.rsc.staged n total offset chunk with
      | none => .refuse .range
      | some x =>
        if x.bytes.length < total then .stage x
        else if sumBytes x.bytes = 0 then .write a x
        else .refuse .range

/-- The body form of WRITE CONFIGURATION AREA: area, total length, offset and a chunk of 1 to 200 bytes (R169). -/
def parseChunk (body : List Byte) : Option (Nat × Nat × Nat × List Byte) :=
  match takeFields [1, 2, 2] body with
  | some ([n, total, offset], chunk) =>
    if 1 ≤ chunk.length ∧ chunk.length ≤ 200 then some (n, total, offset, chunk) else none
  | _ => none

/-- A whole staging joins and its writes begin, or wait for the bus (R169, R173). -/
def Ev.writeConfig (e : Ev) (p : Port) (a : Fin 9) (x : Staging) : Ev :=
  let j : ConfigJob := { port := some p, area := a, staged := x.bytes.length, todo := configSteps a x.bytes }
  let now := e.st.ms
  e.modRsc fun r => { r with staging := some x, jobs := r.jobs ++ [j] }.startJob now

/-- WRITE CONFIGURATION AREA (R169). DESIGN CHOICE: the number of bytes staged takes 2 bytes in the OK answer, as the
total length does in the request (log entry 16). -/
def Ev.takeChunk (p : Port) (body : List Byte) (e : Ev) : Ev :=
  match parseChunk body with
  | none => e.reply p .range []
  | some (n, total, offset, chunk) =>
    match e.st.judgeChunk n total offset chunk with
    | .refuse code => e.reply p code []
    | .stage x => (e.modRsc fun r => { r with staging := some x }).reply p .ok (u16 x.bytes.length)
    | .write a x => e.writeConfig p a x

/-! ### Meanings -/

/-- The meaning of READ CONFIGURATION AREA (R5, R170). -/
def execReadConfigurationArea (p : Port) (seq : Byte) (body : List Byte) (s : State) : Result :=
  .next (s.request .readConfigurationArea p seq (Ev.readConfig p body))

/-- The meaning of WRITE CONFIGURATION AREA (R5, R169). -/
def execWriteConfigurationArea (p : Port) (seq : Byte) (body : List Byte) (s : State) : Result :=
  .next (s.request .writeConfigurationArea p seq (Ev.takeChunk p body))

/-- The meaning of MIRROR WRITE START (R173). -/
def execMirrorWriteStart (s : State) : Result :=
  .next (if s.live || s.phase == .restarting then s.startMirrorWrite else s)

end Sys2Proof.Machine
end

