-- ==== Sys2Proof/Machine/StartUp.lean ====
section
/-! DEFINITION. Start-up: loading the mirror, the recovery of bad slots, the owners' reconciliation and
recount, READY; power, RESET_N and RESTART (sections 10.2, 10.3). -/
namespace Sys2Proof.Machine

/-- The first slot of a kind. -/
def slot0 (k : SlotKind) : SlotId := ⟨k, 0⟩

/-- A MIRROR_FAULT for a bad slot: the value is the slot kind code (R179). -/
def Ev.slotFault (e : Ev) (k : SlotKind) (x : Subject) : Ev := e.log .mirrorFault x k.code

/-- The store of the part. -/
def Ev.store (e : Ev) : Store := e.st.rsc.store

/-! ### Event ring and sequence counters (R176, R181) -/

/-- The largest sequence number of a ring, 0 when it is empty. -/
def largestSeq (ring : List Event) : Nat := (ring.map (·.seq)).foldl max 0

/-- A judged slot with its value at creation. -/
def Judged.value {α : Type} (created : α) : Judged α → α
  | .record _ x => x
  | _ => created

/-- Whether a slot is bad. -/
def Judged.isBad {α : Type} : Judged α → Bool
  | .bad => true
  | _ => false

/-- The ring and the count are taken back, their faults logged, and the held events enter (R176, R181; log
entry 20). -/
def Ev.loadEvents (e : Ev) : Ev :=
  let ring := e.store.judge (slot0 .ring) Parse.ring
  let counters := e.store.judge (slot0 .counters) Parse.counters
  let events := ring.value []
  let count :=
    if counters.isBad then largestSeq events
    else if ring.isBad then (counters.value (0, 0)).2
    else max (counters.value (0, 0)).2 (largestSeq events)
  let e := e.map fun s =>
    { s with
      evr := s.evr.stand events count
      rsc := { s.rsc with accepting := true }
      tlr := { s.tlr with counter := (counters.value (0, 0)).1 } }
  let e := if ring.isBad then e.slotFault .ring (.slot 0) else e
  let e := if counters.isBad then e.slotFault .counters (.slot 0) else e
  e.enterHeld

/-- Whether the sequence counters slot is bad (R54, R176). -/
def Ev.countersBad (e : Ev) : Bool := (e.store.judge (slot0 .counters) Parse.counters).isBad

/-! ### Balance, pits and bins (R95) -/

/-- The balance is taken back (R95, R176). -/
def Ev.loadBalance (e : Ev) : Ev :=
  match e.store.judge (slot0 .balance) Parse.balance with
  | .record _ b => e.map fun s => { s with inv := { s.inv with balance := b } }
  | .bad => (e.modBalance fun _ => { Balance.created with isOpen := true }).slotFault .balance (.slot 0)
  | .blank => e
  | .vacant => e

/-- A pit of the mirror as this start-up makes it (R95). -/
def PitRec.restored (m : PitRec) (rev capacity : Nat) : PitRec :=
  { m with capacity, outbound := none, overfill := decide (m.mass > capacity), rev }

/-- One pit is taken back (R95, R176; log entry 21). -/
def Ev.loadPit (e : Ev) (i : PitIx) : Ev :=
  let cap := (e.st.pit i).capacity
  match e.store.judge ⟨.pit, i⟩ Parse.pit with
  | .record rev m =>
    let b := m.restored rev cap
    let e := e.map (·.modPit i fun _ => b)
    let e := if b.overfill && !m.overfill then e.log .overfill (.location (i.val + 29)) ((b.mass : Int) - cap) else e
    e.touchIf (b != { m with rev }) (.pit i)
  | .bad =>
    let e := e.map (·.modPit i fun _ => { PitRec.created cap with unverified := true })
    (((e.slotFault .pit (.location (i.val + 29))).openBalance).enqueue ⟨.pit, i⟩)
  | .blank => e
  | .vacant => e

/-- A bin of the mirror as this start-up makes it (R95). -/
def BinRec.restored (m : BinRec) (rev : Nat) (kind : BinKind) (capacity : Nat) : BinRec :=
  let ceiling := if m.retained then min m.ceiling capacity else capacity
  { m with kind, capacity, ceiling, inbound := none, outbound := none, overfill := decide (m.mass > ceiling), rev }

/-- One bin is taken back (R95, R176; log entry 21). -/
def Ev.loadBin (e : Ev) (i : BinIx) : Ev :=
  let now := e.st.bin i
  match e.store.judge ⟨.bin, i⟩ Parse.bin with
  | .record rev m =>
    let b := m.restored rev now.kind now.capacity
    let e := e.map (·.modBin i fun _ => b)
    let e := if b.overfill && !m.overfill then e.log .overfill (.location (i.val + 1)) ((b.mass : Int) - b.ceiling) else e
    e.touchIf (b != { m with rev }) (.bin i)
  | .bad =>
    let e := e.map (·.modBin i fun _ =>
      { BinRec.created now.kind now.capacity with unverified := true, hold := some ⟨.standard, .office⟩ })
    let e := (e.log .holdPlaced (.location (i.val + 1)) 1).slotFault .bin (.location (i.val + 1))
    e.openBalance.enqueue ⟨.bin, i⟩
  | .blank => e
  | .vacant => e

/-! ### Tickets and lots -/

/-- One ticket slot is taken back; a bad one drops its ticket (R176). -/
def Ev.loadTicket (e : Ev) (pos : Nat) : Ev :=
  match e.store.judge ⟨.ticket, pos⟩ Parse.ticket with
  | .record rev t =>
    if (e.st.ticket t.number).isSome then e
    else e.map fun s => { s with tlr := { s.tlr with tickets := s.tlr.tickets ++ [{ t with pos, rev }] } }
  | .bad => (e.slotFault .ticket (.slot pos)).enqueue ⟨.ticket, pos⟩
  | .blank => e
  | .vacant => e

/-- One lot slot is taken back; a bad one is left empty (R176). -/
def Ev.loadLot (e : Ev) (pos : Nat) : Ev :=
  match e.store.judge ⟨.lot, pos⟩ Parse.lot with
  | .record rev l =>
    if (e.st.lot l.number).isSome then e
    else e.map fun s => { s with tlr := { s.tlr with lots := s.tlr.lots ++ [{ l with pos, rev }] } }
  | .bad => (e.slotFault .lot (.slot pos)).enqueue ⟨.lot, pos⟩
  | .blank => e
  | .vacant => e

/-! ### Batch list, berth, condition records, survey, running transfers -/

/-- The batch list is taken back (R133, R176). -/
def Ev.loadDru (e : Ev) : Ev :=
  match e.store.judge (slot0 .batchList) Parse.dru with
  | .record rev d => e.modDru fun _ => { d with rev }
  | .bad => (((e.modDru fun _ => .created).slotFault .batchList (.location 31)).openBalance).enqueue (slot0 .batchList)
  | .blank => e
  | .vacant => e

/-- The berth is taken back; its freshness is STALE (R167, R176). -/
def Ev.loadBtu (e : Ev) : Ev :=
  match e.store.judge (slot0 .berth) Parse.btu with
  | .record rev b =>
    let e := e.modBtu fun _ => { b with rev, fresh := false }
    e.touchIf b.fresh .berth
  | .bad => (((e.modBtu fun _ => .created).slotFault .berth (.location 32)).openBalance).enqueue (slot0 .berth)
  | .blank => e
  | .vacant => e

/-- A condition record is taken back into what the CDM holds of a bin (R153). -/
def BinCondition.restore (b : BinCondition) (r : ConditionRecord) : BinCondition :=
  { b with
    level := r.level
    order := r.order
    hottest := { b.hottest with norm := r.hottest }
    rise := { b.rise with norm := r.rise }
    savedHottest := r.hottest
    savedRise := r.rise }

/-- One condition record is taken back (R153, R176). -/
def Ev.loadCondition (e : Ev) (i : BinIx) : Ev :=
  match e.store.judge ⟨.condition, i⟩ Parse.condition with
  | .record _ r => e.map (·.modCond i (·.restore r))
  | .bad => ((e.map (·.modCond i fun _ => .start)).slotFault .condition (.location (i.val + 1))).enqueue ⟨.condition, i⟩
  | .blank => e
  | .vacant => e

/-- The survey log, the counter and the record of a running survey are taken back; a survey found running
waits for step 4 (R153, R176). -/
def Ev.loadSurvey (e : Ev) : Ev :=
  match e.store.judge (slot0 .survey) Parse.survey with
  | .record _ (log, counter, running) => e.modCdm fun c => { c with log, surveyCtr := counter, survey := running }
  | .bad =>
    let e := e.modCdm fun c => { c with log := [], surveyCtr := 0, survey := none }
    (e.slotFault .survey (.slot 0)).enqueue (slot0 .survey)
  | .blank => e
  | .vacant => e

/-- The running-transfer list is taken back (R121, R176). -/
def Ev.loadRunning (e : Ev) : Ev :=
  match e.store.judge (slot0 .running) Parse.running with
  | .record _ xs => e.map fun s => { s with rc := { s.rc with running := xs } }
  | .bad =>
    let e := e.map fun s => { s with rc := { s.rc with running := [] } }
    (e.slotFault .running (.slot 0)).enqueue (slot0 .running)
  | .blank => e
  | .vacant => e

/-- Step 3 of start-up: the slots are loaded in the order of R176. -/
def Ev.loadMirror (e : Ev) : Ev :=
  let e := e.loadEvents.loadBalance
  let e := (List.finRange 2).foldl Ev.loadPit e
  let e := (List.finRange 28).foldl Ev.loadBin e
  let e := (List.range 12).foldl Ev.loadTicket e
  let e := (List.range 400).foldl Ev.loadLot e
  let e := e.loadDru.loadBtu
  let e := (List.finRange 28).foldl Ev.loadCondition e
  e.loadSurvey.loadRunning

/-! ### Reconciliation of tickets and pits (R53) -/

/-- A ticket is removed by the reconciliation: a MIRROR_FAULT with the ticket, and the balance opens (R53). -/
def Ev.dropTicket (e : Ev) (t : Ticket) : Ev :=
  ((e.removeTicket t).log .mirrorFault (.ticket t.number) 0).openBalance

/-- A pit becomes UNVERIFIED by the reconciliation (R53). DESIGN CHOICE: one that is UNVERIFIED already logs its
MIRROR_FAULT and raises its revision all the same (log entry 34). -/
def Ev.doubtPit (e : Ev) (i : PitIx) (empty : Bool) : Ev :=
  let e := e.map (·.modPit i fun b =>
    { b with unverified := true, state := if empty then .empty else b.state })
  ((e.touch (.pit i)).log .mirrorFault (.location (i.val + 29)) 0).openBalance

/-- One open ticket is reconciled with its pit (R53, the first six lines). DESIGN CHOICE: R53 has no line for an ASSIGNED
or DUMPED ticket that names no pit; it is removed when a lot of its number is in the register, and else kept as mirrored
(log entry 49). -/
def Ev.reconcileTicket (e : Ev) (n : Nat) : Ev :=
  match e.st.ticket n with
  | none => e
  | some t =>
    let taken := (e.st.lot n).isSome
    match t.state, t.pit with
    | .opened, _ => if taken then e.dropTicket t else e
    | .weighedIn, _ => if taken then e.dropTicket t else e
    | .sampled, _ => if taken then e.dropTicket t else e
    | _, none => if taken then e.dropTicket t else e
    | st, some i =>
      let pit := (e.st.pit i).state
      if taken then
        let e := e.dropTicket t
        if pit = .receiving n then e.doubtPit i true else e
      else if pit = .receiving n then e
      else if pit = .empty then (e.map (·.modPit i fun b => { b with state := .receiving n })).touch (.pit i)
      else if st = .assigned then e.changeTicket n fun t => { t with state := .sampled, pit := none }
      else (e.dropTicket t).doubtPit i false

/-- Whether an ASSIGNED or DUMPED ticket names a pit as its own (R53). -/
def State.isNamed (s : State) (i : PitIx) (n : Nat) : Bool :=
  match s.ticket n with
  | some t => (t.state == .assigned || t.state == .dumped) && t.pit == some i
  | none => false

/-- One pit under the last line of R53. -/
def Ev.reconcilePit (e : Ev) (i : PitIx) : Ev :=
  match (e.st.pit i).state with
  | .receiving n => if e.st.isNamed i n then e else e.doubtPit i true
  | .empty => e
  | .loaded => e

/-- Numbers in ascending order. -/
def ascending (xs : List Nat) : List Nat := xs.mergeSort (fun a b => decide (a ≤ b))

/-- The reconciliation of R53. -/
def Ev.reconcile (e : Ev) : Ev :=
  let e := (ascending (e.st.tlr.tickets.map (·.number))).foldl Ev.reconcileTicket e
  (List.finRange 2).foldl Ev.reconcilePit e

/-! ### What each owner does with what it loaded (R121, R133, R153, R167) -/

/-- The RC logs its interrupted transfers and empties the list (R121). DESIGN CHOICE: a list that the mirror gives back
empty is not handed over, since this start-up does not change it (R175; log entry 50). -/
def Ev.logInterrupted (e : Ev) : Ev :=
  let xs := e.st.rc.running
  if xs = [] then e
  else
    let e := xs.foldl (fun e x => e.log .interrupted (.location x.2.number) x.1) e
    (e.map fun s => { s with rc := { s.rc with running := [] } }).enqueue (slot0 .running)

/-- The DRU closes a FILLING batch (R133). -/
def Ev.closeLoadedFeed (e : Ev) : Ev :=
  let d := e.st.dru.closeFilling e.st.term
  if d = e.st.dru then e else (e.modDru fun _ => d).touch .batchList

/-- The level and the order of a bin after loading (R153). -/
def BinCondition.settled (b : BinCondition) (empty : Bool) : BinCondition :=
  if empty then { b with level := .normal, order := .none }
  else { b with order := match b.order with | .inProgress => .ordered | o => o }

/-- The CDM settles one bin, and the INV takes its level (R95, R153). -/
def Ev.settleCondition (e : Ev) (i : BinIx) : Ev :=
  let b := e.st.cond i
  let b' := b.settled (e.st.bin i).layers.isEmpty
  let old := (e.st.bin i).level
  let e := if b' = b then e else (e.map (·.modCond i fun _ => b'.save)).enqueue ⟨.condition, i⟩
  if old = b'.level then e else (e.map (·.modBin i fun x => { x with level := b'.level })).touch (.bin i)

/-- The CDM ends a survey the mirror shows running (R153). -/
def Ev.interruptSurvey (e : Ev) : Ev :=
  match e.st.cdm.survey with
  | none => e
  | some r =>
    let x : SurveyEntry :=
      { number := r.number, status := .interrupted, startTime := r.startTime, endTime := 0, spans := r.spans, loc := none }
    let e := (e.modCdm fun c => { c.pushEntry x with survey := none }).enqueue (slot0 .survey)
    (e.log .surveyEnd .none SurveyStatus.interrupted.code).offer [r.port, .office] .surveyDone x.bytes

/-- The BTU recomputes the ceiling of a PLANNED barge and acts on it (R167). -/
def Ev.recomputeCeiling (e : Ev) : Ev :=
  let b := e.st.btu
  if b.state = .planned then
    let ceiling := e.st.ceilingAt b.hullMax b.lightDraft b.tpc (b.stage.getD 0)
    let e := (e.modBtu fun b => { b with ceiling }).touchIf (ceiling != b.ceiling) .berth
    e.actOnPlan
  else e

/-! ### The recount (R54) -/

/-- Every list that references lots, with the commodity of its location: pits, bins, DRYER, BERTH while
PLANNED, in the order of R54. -/
def State.lotLists (s : State) : List (Option Nat × List Nat) :=
  (s.inv.pits.toList.flatMap fun b => b.layers.map fun l => (b.commodity, l.lots))
    ++ (s.inv.bins.toList.flatMap fun b => b.layers.map fun l => (b.commodity, l.lots))
    ++ (s.dru.batches.map fun b => (s.dru.commodity, b.lots))
    ++ (if s.btu.state = .planned then s.btu.holds.map fun h => (some s.btu.commodity, h.lots) else [])

/-- The references a lot has (R51, R54). -/
def State.refsOf (s : State) (n : Nat) : Nat := (s.lotLists.filter fun x => x.2.contains n).length

/-- A lot of the register with no reference retires; one with another count takes it (R54). -/
def Ev.recountLot (e : Ev) (n : Nat) : Ev :=
  match e.st.lot n with
  | none => e
  | some l =>
    let c := e.st.refsOf n
    if c = l.refs then e else e.map fun s => (s.modLot n fun l => { l with refs := c }).revise (.lot n)

/-- The lots of the register with no reference, in ascending order (R54). -/
def State.unreferenced (s : State) : List Nat :=
  ascending ((s.tlr.lots.map (·.number)).filter fun n => s.refsOf n == 0)

/-- The lot numbers named in a list but not in the register, in ascending order (R54). -/
def State.unregistered (s : State) : List Nat :=
  ascending ((s.lotLists.flatMap (·.2)).eraseDups.filter fun n => (s.lot n).isNone)

/-- A DAMAGED lot (R54). -/
def State.damagedLot (s : State) (n : Nat) : Lot :=
  { pos := freePos (s.tlr.lots.map (·.pos)), number := n, damaged := true,
    commodity := ((s.lotLists.find? fun x => x.2.contains n).bind (·.1)).getD 0, grade := 0, wet := true,
    estimated := false, net := 0, moisture := 0, standard := 0, waterShrink := 0, handlingShrink := 0,
    intakeTime := 0, refs := s.refsOf n, rev := 1 }

/-- A layer with a lot struck from its list (R54). -/
def Layer.strike (n : Nat) (l : Layer) : Layer :=
  if l.lots.contains n then { l with lots := l.lots.filter (· != n), untraced := true } else l

/-- A batch with a lot struck from its list (R54). -/
def Batch.strike (n : Nat) (b : Batch) : Batch :=
  if b.lots.contains n then { b with lots := b.lots.filter (· != n), untraced := true } else b

/-- A barge hold with a lot struck from its list (R54). -/
def BargeHold.strike (n : Nat) (h : BargeHold) : BargeHold :=
  if h.lots.contains n then { h with lots := h.lots.filter (· != n), untraced := true } else h

/-- Whether a layer list names a lot. -/
def names (n : Nat) (ls : List Layer) : Bool := ls.any fun l => l.lots.contains n

/-- A lot number is struck from every list that names it (R54). -/
def Ev.strikeLot (e : Ev) (n : Nat) : Ev :=
  let e := (List.finRange 2).foldl (fun e i =>
    if names n (e.st.pit i).layers then
      (e.map (·.modPit i fun b => { b with layer := b.layer.map (Layer.strike n) })).touch (.pit i)
    else e) e
  let e := (List.finRange 28).foldl (fun e i =>
    if names n (e.st.bin i).layers then
      (e.map (·.modBin i fun b => { b with layers := b.layers.map (Layer.strike n) })).touch (.bin i)
    else e) e
  let e :=
    if e.st.dru.batches.any fun b => b.lots.contains n then
      (e.modDru fun d => { d with batches := d.batches.map (Batch.strike n) }).touch .batchList
    else e
  let e :=
    if e.st.btu.state = .planned ∧ e.st.btu.holds.any fun h => h.lots.contains n then
      (e.modBtu fun b => { b with holds := b.holds.map (BargeHold.strike n) }).touch .berth
    else e
  e.log .lotUntraced (.lot n) 0

/-- A lot named in a list but not in the register: DAMAGED while the law of R40 holds, else struck (R54). DESIGN
CHOICE: an open ticket of the same number is kept beside it (log entry 34). -/
def Ev.rebuildLot (e : Ev) (n : Nat) : Ev :=
  if e.st.tlr.tickets.length < e.st.freeLots then e.enterLot (e.st.damagedLot n) else e.strikeLot n

/-- The recount of R54. DESIGN CHOICE: when the mirror gave back more tickets than free lot entries, every
ticket and lot taken back is kept (log entry 34). -/
def Ev.recountAll (e : Ev) : Ev :=
  let e := e.st.unreferenced.foldl (fun e n => e.retireLot n false) e
  let e := (ascending (e.st.tlr.lots.map (·.number))).foldl Ev.recountLot e
  e.st.unregistered.foldl Ev.rebuildLot e

/-- A ticket counter whose slot is bad takes the largest number in use (R54). -/
def Ev.recoverCounter (e : Ev) (bad : Bool) : Ev :=
  if bad then
    (e.map fun s => { s with tlr := { s.tlr with counter := s.numbersInUse.foldl max 0 } }).enqueue (slot0 .counters)
  else e

/-- The balance test of R96. -/
def Ev.testBalance (e : Ev) : Ev :=
  let x := e.st.imbalance
  if !e.st.inv.balance.isOpen && decide (x ≠ 0) then e.openBalance.log .mirrorFault (.location 0) x else e

/-- Step 4 of start-up (R175). -/
def Ev.reconcileAll (e : Ev) : Ev :=
  let bad := e.countersBad
  let e := e.reconcile.logInterrupted.closeLoadedFeed
  let e := (List.finRange 28).foldl Ev.settleCondition e
  let e := e.interruptSurvey.recomputeCeiling
  ((e.recountAll).recoverCounter bad).testBalance

/-- Step 5 of start-up: READY, and the poll cycle timer starts (R137, R175). -/
def State.becomeReady (s : State) : State :=
  { s with phase := .ready, cdm := { s.cdm with pollDue := some s.ms } }

/-- The meaning of MIRROR LOADED: steps 3 to 5 of start-up (R175, R176). -/
def execMirrorLoaded (s : State) : Result :=
  if s.phase = .loadMirror then .next (s.event fun e => e.loadMirror.reconcileAll).becomeReady
  else .next s

/-! ### Power, RESET_N and RESTART (R120, R173, R175) -/

/-- The store after power or RESET_N has cut the write in progress off (R173; log entry 10). -/
def Rsc.cutOff (r : Rsc) (left : List Byte) : Store :=
  match r.write with
  | some w => r.store.torn w left
  | none => r.store

/-- The part without power or held in RESET_N: its state is lost and every permit line is low (R120, R173; log
entry 29). -/
def State.stopped (s : State) (left : List Byte) (phase : Phase) : State :=
  { State.startUp (s.rsc.cutOff left) s.pending with phase }

/-- Once RESTART has written the queue out, start-up begins (R175). DESIGN CHOICE: R175 names the write in progress
and the queue alone; a configuration write that waits for the bus, or whose header write has still to begin, is
written out too before start-up begins (log entry 48). -/
def State.finishRestart (s : State) : State :=
  if s.phase = .restarting ∧ s.rsc.write = none ∧ s.rsc.jobs = [] ∧ s.rsc.queue = [] then
    State.startUp s.rsc.store s.pending
  else s

/-- The RESTART answer has been sent: every claim is dropped, and the queue is written out (R175). -/
def State.beginRestart (s : State) : State :=
  (({ s with phase := .restarting } : State).event Ev.dropClaims).finishRestart

/-- The meaning of POWER ON (R175). -/
def execPowerOn (s : State) : Result :=
  if s.phase = .off then .next (State.startUp s.rsc.store s.pending) else .next s

/-- The meaning of POWER LOSS (R173). -/
def execPowerLoss (left : List Byte) (s : State) : Result :=
  if s.phase = .off then .next s else .next (s.stopped left .off)

/-- The meaning of RESET_N ASSERTED (R120, R173). -/
def execResetNAsserted (left : List Byte) (s : State) : Result :=
  if s.phase = .off ∨ s.phase = .resetHeld then .next s else .next (s.stopped left .resetHeld)

/-- The meaning of RESET_N RELEASED (R175). -/
def execResetNReleased (s : State) : Result :=
  if s.phase = .resetHeld then .next (State.startUp s.rsc.store s.pending) else .next s

/-- RESTART (R175): always taken; its work begins once the answer has been sent. -/
def Ev.restart (p : Port) (body : List Byte) (e : Ev) : Ev :=
  if body = [] then e.reply p .ok [] else e.reply p .range []

/-- The meaning of RESTART (R5, R175). -/
def execRestart (p : Port) (seq : Byte) (body : List Byte) (s : State) : Result :=
  .next (s.request .restart p seq (Ev.restart p body))

/-- Whether the part runs: the store bus is at work (R175). -/
def State.running (s : State) : Bool := s.live || s.phase == .restarting

/-- The meaning of READ STATUS: bit 0 of the status byte reads 0 when the write is done (R173, R174). -/
def execStoreStatusPoll (status : Byte) (s : State) : Result :=
  match s.running, s.rsc.write with
  | true, some w =>
    if status.toNat % 2 = 0 then .next (s.event fun e => e.writeDone w).finishRestart else .next s
  | _, _ => .next s

/-- The meaning of a slot write's time limit (R173, R175). -/
def execMirrorWriteTimeout (left : List Byte) (s : State) : Result :=
  match s.running, s.rsc.write with
  | true, some w =>
    match w.target with
    | .mirror id =>
      .next ((s.advanceTo (w.began + writeTime)).event fun e => e.mirrorAbandoned w id left).finishRestart
    | .config => .next s
  | _, _ => .next s

/-- The meaning of a configuration write's time limit (R169). -/
def execConfigWriteTimeout (left : List Byte) (s : State) : Result :=
  match s.running, s.rsc.write with
  | true, some w =>
    match w.target with
    | .config => .next ((s.advanceTo (w.began + writeTime)).event fun e => e.configAbandoned w left).finishRestart
    | .mirror _ => .next s
  | _, _ => .next s

end Sys2Proof.Machine
end

