-- ==== Sys2Proof/Machine/Links.lean ====
section
/-! DEFINITION. The Station Link Ports: the receiver, collisions, transmissions, watches, silence, port reset,
and the requests the SLP, the EVR and the TCK answer (chapters 1 and 11, section 10.4). -/
namespace Sys2Proof.Machine

/-! ### The receiver (R2) -/

/-- The opener of a frame (section 1.2). -/
def opener : Byte := 0xC3

/-- The receiver after one character, and whether the character ended a frame in a frame error (R2). A frame
that completes with a good check leaves the receiver HUNTING; its arrival is a command of its own (log entry
5). -/
def Receiver.take (r : Receiver) (c : RxChar) : Receiver × Bool :=
  match r with
  | .inBreak => (.inBreak, false)
  | .hunting => (if c.byte = opener ∧ c.parityOk then .inFrame [] else .hunting, false)
  | .inFrame got =>
    if !c.parityOk then (.hunting, true)
    else
      let got := got ++ [c.byte]
      match got with
      | [] => (.hunting, false)
      | len :: _ =>
        if len.toNat > 240 then (.hunting, true)
        else if got.length < len.toNat + 4 then (.inFrame got, false)
        else (.hunting, sumBytes got != 0)

/-- The receiver after some characters, and whether a frame error occurred among them (R2). -/
def Receiver.takeAll (r : Receiver) : List RxChar → Receiver × Bool
  | [] => (r, false)
  | c :: cs =>
    let (r, bad) := r.take c
    let (r, bad') := r.takeAll cs
    (r, bad || bad')

/-- Characters reach a port's receiver; a frame error sets FRAME_ERROR (R2). -/
def SlpPort.receive (q : SlpPort) (cs : List RxChar) : SlpPort :=
  let (r, bad) := q.receiver.takeAll cs
  { q with receiver := r, flags := { q.flags with frameError := q.flags.frameError || bad } }

/-- Ten character times pass: a frame begun ends in a frame error (R2). -/
def SlpPort.frameTimeout (q : SlpPort) : SlpPort :=
  match q.receiver with
  | .inFrame _ => { q with receiver := .hunting, flags := { q.flags with frameError := true } }
  | _ => q

/-- The meaning of FRAME ERROR: characters that end a frame in a frame error (R2). -/
def execFrameError (p : Port) (chars : List RxChar) (s : State) : Result :=
  .next (if s.hears p then s.modPort p (·.receive chars) else s)

/-- The meaning of INTER-CHARACTER TIMEOUT: characters, and then ten character times of silence (R2). -/
def execInterCharacterTimeout (p : Port) (chars : List RxChar) (s : State) : Result :=
  .next (if s.hears p then s.modPort p fun q => (q.receive chars).frameTimeout else s)

/-! ### Frames with no owner (R4, R5) -/

/-- The kind byte of CANCEL WATCH (R5). -/
def cancelKind : Byte := 0x04

/-- Whether a valid frame of a kind collides at a port (R4). -/
def SlpPort.collides (q : SlpPort) (kind : Byte) : Bool :=
  match q.slot with
  | .empty => false
  | .acting _ _ => true
  | .answering _ _ => true
  | .parked _ _ => kind != cancelKind

/-- The meaning of COLLIDED: a valid frame arrives while the slot is occupied (R4). -/
def execCollided (p : Port) (kind : Byte) (s : State) : Result :=
  .next (if s.hears p && (s.port p).collides kind then (s.hear p).collide p else s)

/-- The meaning of a valid frame of a kind that is not in the request table (R2, R4, R5). -/
def execUndefinedKindRequest (p : Port) (seq kind : Byte) (s : State) : Result :=
  if !s.hears p || isRequestKind kind then .next s
  else
    let s := s.hear p
    match (s.port p).slot with
    | .empty => .next ((s.hold p seq kind).reply p .range [])
    | _ => .next (s.collide p)

/-! ### Transmissions (R6, R7, R9) -/

/-- A transmission begins: the waiting answer with the port's flags, which it clears, or else the oldest
notice (R6, R7). -/
def SlpPort.transmit (q : SlpPort) : SlpPort :=
  match q.receiver, q.tx with
  | .hunting, none =>
    match q.slot, q.notices with
    | .answering a _, _ => { q with tx := some (.answer (a.frame q.flags)), flags := .clear }
    | _, n :: _ => { q with tx := some (.notice n.frame) }
    | _, [] => q
  | _, _ => q

/-- The slot once the answer it holds has been sent: a second answer still waits, or it is EMPTY (R6, R15). -/
def Slot.sent : Slot → Slot
  | .answering _ (some b) => .answering b none
  | .answering _ none => .empty
  | x => x

/-- Whether the answer in a slot is that of a RESTART taken (R175). -/
def Slot.isRestart : Slot → Bool
  | .answering a _ => a.kind == ReqKind.restart.code && a.code == .ok
  | _ => false

/-- Whether a port is sending an answer. -/
def SlpPort.sendsAnswer (q : SlpPort) : Bool := match q.tx with | some (.answer _) => true | _ => false

/-- Whether a port is sending a notice. -/
def SlpPort.sendsNotice (q : SlpPort) : Bool := match q.tx with | some (.notice _) => true | _ => false

/-- The meaning of TRANSMISSION START (R7). DESIGN CHOICE: while RESTART writes the queue out no transmission begins
or ends (R175; log entry 39). -/
def execTransmissionStart (p : Port) (s : State) : Result :=
  .next (if s.live then s.modPort p SlpPort.transmit else s)

/-- The meaning of ANSWER SENT: the slot becomes EMPTY, and RESTART begins after its answer (R6, R175; log entry
39). -/
def execAnswerSent (p : Port) (s : State) : Result :=
  if s.live && (s.port p).sendsAnswer then
    let t := s.modPort p fun q => { q with tx := none, slot := q.slot.sent }
    .next (if (s.port p).slot.isRestart then t.beginRestart else t)
  else .next s

/-- The meaning of NOTICE SENT: the oldest notice leaves the queue (R9; log entry 39). -/
def execNoticeSent (p : Port) (s : State) : Result :=
  .next (if s.live && (s.port p).sendsNotice then s.modPort p fun q => { q with tx := none, notices := q.notices.tail } else s)

/-! ### Port reset (R17, R34, R169) -/

/-- The WBU drops a capture of a port (R34). -/
def Wbu.abandon (w : Wbu) (p : Port) : Wbu :=
  match w.capture with
  | some c => if c.port = p then { w with capture := none } else w
  | none => w

/-- A configuration write whose port was reset goes on without an answer (R169). -/
def ConfigJob.orphan (p : Port) (j : ConfigJob) : ConfigJob := { j with port := if j.port = some p then none else j.port }

/-- A port reset (R17). -/
def SlpPort.reset (now : Nat) : SlpPort :=
  { receiver := .inBreak, slot := .empty, flags := .clear, notices := [], silent := false, timer := some now, tx := none }

/-- The meaning of PORT RESET (R17). -/
def execPortReset (p : Port) (s : State) : Result :=
  .next (if s.hears p then
      let s := s.modPort p fun _ => SlpPort.reset s.ms
      { s with wbu := s.wbu.abandon p, rsc := { s.rsc with jobs := s.rsc.jobs.map (ConfigJob.orphan p) } }
    else s)

/-- The receiver when the line returns to idle after a break (R17). -/
def SlpPort.lineIdle (q : SlpPort) : SlpPort :=
  match q.receiver with
  | .inBreak => { q with receiver := .hunting }
  | _ => q

/-- The meaning of LINE RETURNS TO IDLE (R17). -/
def execLineReturnsToIdle (p : Port) (s : State) : Result :=
  .next (if s.live then s.modPort p SlpPort.lineIdle else s)

/-! ### Silence (R16) -/

/-- The event of a port's silence timer expiring (R16). -/
def Ev.fallSilent (e : Ev) (p : Port) : Ev :=
  let e := e.map (·.modPort p fun q => { q with silent := true, timer := none })
  let e := e.silenceClaims p
  let e := e.map (·.modPort p fun q => { q with flags := { q.flags with silentTripped := true } })
  let e := e.offer allPorts .stationSilent (u8 (portNo p))
  e.log .stationSilent (.port (portNo p)) 0

/-- The silence timeout in milliseconds (section 1.8). -/
def State.silenceSpan (s : State) : Nat := 1000 * s.link.silence

/-- The meaning of a silence timer's expiry on a HEARD port (R16). -/
def execSilenceTimeout (p : Port) (s : State) : Result :=
  match s.live, (s.port p).silent, (s.port p).timer with
  | true, false, some t => .next ((s.advanceTo (t + s.silenceSpan)).event fun e => e.fallSilent p)
  | _, _, _ => .next s

/-! ### Watches (R13 to R15) -/

/-- The expiry of a watch: none for a timeout of 0, and at most 600 s (R13). -/
def watchExpiry (now timeout : Nat) : Option Nat :=
  if timeout = 0 then none else some (now + 1000 * min timeout 600)

/-- WATCH (R13). -/
def Ev.watch (p : Port) (seq : Byte) (body : List Byte) (e : Ev) : Ev :=
  match fields [1, 2, 2, 2] body with
  | some [kind, index, expected, timeout] =>
    match recOf kind index with
    | none => e.reply p .range []
    | some r =>
      match e.st.rev r with
      | none => e.reply p .notFound []
      | some rev =>
        if expected ≠ rev then e.reply p .changed (u16 rev)
        else
          let w : Watch := { subject := r, expected, expiry := watchExpiry e.st.ms timeout }
          e.map (·.modPort p fun q => { q with slot := .parked seq w })
  | _ => e.reply p .range []

/-- The meaning of WATCH (R5, R13). -/
def execWatch (p : Port) (seq : Byte) (body : List Byte) (s : State) : Result :=
  .next (s.request .watch p seq (Ev.watch p seq body))

/-- A parked watch whose timeout runs out (R14). -/
def SlpPort.expireWatch (q : SlpPort) : SlpPort :=
  match q.slot with
  | .parked seq _ => { q with slot := .answering ⟨seq, watchKind, .expired, []⟩ none }
  | _ => q

/-- The millisecond at which a slot's watch expires. -/
def Slot.expiry : Slot → Option Nat
  | .parked _ w => w.expiry
  | _ => none

/-- The meaning of a watch's expiry (R14). -/
def execWatchExpired (p : Port) (s : State) : Result :=
  match s.live, (s.port p).slot.expiry with
  | true, some t => .next ((s.advanceTo t).modPort p SlpPort.expireWatch)
  | _, _ => .next s

/-- CANCEL WATCH in an empty slot (R15). -/
def Ev.cancelNone (p : Port) (body : List Byte) (e : Ev) : Ev :=
  if body = [] then e.reply p .badState [] else e.reply p .range []

/-- A parked watch ends CANCELLED, and the CANCEL WATCH is answered OK after it (R15). -/
def SlpPort.cancel (seq : Byte) (q : SlpPort) : SlpPort :=
  match q.slot with
  | .parked old _ =>
    { q with slot := .answering ⟨old, watchKind, .cancelled, []⟩ (some ⟨seq, cancelKind, .ok, []⟩) }
  | _ => q

/-- Whether a slot is PARKED. -/
def Slot.isParked : Slot → Bool
  | .parked _ _ => true
  | _ => false

/-- The meaning of CANCEL WATCH (R4, R5, R15; log entry 17). -/
def execCancelWatch (p : Port) (seq : Byte) (body : List Byte) (s : State) : Result :=
  if s.hears p && (s.port p).slot.isParked then .next ((s.hear p).modPort p (SlpPort.cancel seq))
  else .next (s.request .cancelWatch p seq (Ev.cancelNone p body))

/-! ### READ RECORD (R11) -/

/-- The position byte of a READ RECORD body after the kind and index: `d` when absent (R77, R125, R156). -/
def positionOf (d : Nat) : List Byte → Option Nat
  | [] => some d
  | [b] => some b.toNat
  | _ => none

/-- Whether a position may be read in a list: inside it, or 0 of an empty one (R77, R125). -/
def positionIn (pos count : Nat) : Bool := decide (pos < count) || (count == 0 && pos == 0)

/-- READ RECORD on a record whose answer may start at a position counted from 0 (R77, R125). -/
def Ev.readList (e : Ev) (p : Port) (rev : Nat) (header : Nat → Nat → List Byte) (entries : List (List Byte))
    (extra : List Byte) : Ev :=
  match positionOf 0 extra with
  | some pos =>
    if positionIn pos entries.length then e.reply p .ok (u16 rev ++ listing header entries pos)
    else e.reply p .range []
  | none => e.reply p .range []

/-- The berth body from barge hold `n` onward (R156). -/
def State.berthListing (s : State) (n : Nat) : List Byte :=
  let xs := fitting (entryRoom (s.btu.header s.rc.berthIn n 0)) ((s.btu.holds.map BargeHold.entry).drop (n - 1))
  s.btu.header s.rc.berthIn n xs.length ++ xs.flatten

/-- READ RECORD on the berth (R156). -/
def Ev.readBerth (e : Ev) (p : Port) (extra : List Byte) : Ev :=
  match positionOf 1 extra with
  | some n =>
    if 1 ≤ n ∧ (n ≤ e.st.btu.holds.length ∨ (e.st.btu.state = .empty ∧ n = 1)) then
      e.reply p .ok (u16 e.st.btu.rev ++ e.st.berthListing n)
    else e.reply p .range []
  | none => e.reply p .range []

/-- READ RECORD on a record whose body is read whole (R11). -/
def Ev.readWhole (e : Ev) (p : Port) (extra : List Byte) (answer : Option (List Byte)) : Ev :=
  if extra ≠ [] then e.reply p .range []
  else match answer with
    | some body => e.reply p .ok body
    | none => e.reply p .notFound []

/-- The revision and body of a record that is read whole (R11). -/
def State.wholeAnswer (s : State) : RecRef → Option (List Byte)
  | .ticket n => (s.ticket n).map Ticket.answer
  | .lot n => (s.lot n).map fun l => u16 l.rev ++ l.body
  | .claim n => (s.claim n).map fun c => u16 c.rev ++ s.claimBody c
  | .segment i => some (u16 (s.seg i).rev ++ (s.seg i).body i)
  | .bin _ | .pit _ | .batchList | .berth => none

/-- READ RECORD (R11). -/
def Ev.readRecord (p : Port) (body : List Byte) (e : Ev) : Ev :=
  match takeFields [1, 2] body with
  | some ([kind, index], extra) =>
    match recOf kind index with
    | none => e.reply p .range []
    | some (.bin i) => let b := e.st.bin i; e.readList p b.rev (b.header i) (b.layers.map Layer.entry) extra
    | some (.pit i) => let b := e.st.pit i; e.readList p b.rev (b.header i) (b.layers.map Layer.entry) extra
    | some .batchList =>
      let d := e.st.dru
      e.readList p d.rev (d.header e.st.rc.dryerIn e.st.rc.dryerOut) (d.batches.map Batch.entry) extra
    | some .berth => e.readBerth p extra
    | some r => e.readWhole p extra (e.st.wholeAnswer r)
  | _ => e.reply p .range []

/-- The meaning of READ RECORD (R5, R11). -/
def execReadRecord (p : Port) (seq : Byte) (body : List Byte) (s : State) : Result :=
  .next (s.request .readRecord p seq (Ev.readRecord p body))

/-! ### STATUS (R182, R183) -/

/-- The effective codes of every configured point that stand for a temperature (R182). -/
def State.temps (s : State) : List Int :=
  s.cdm.nodes.flatMap fun n => n.points.toList.filterMap fun x => x.temp s.ms

/-- The hottest code: 0x80 when no point is valid, 0 in CONFIG_FAULT (R182; log entry 33). -/
def State.hottestCode (s : State) : Nat :=
  if s.phase = .configFault then 0
  else match greatest s.temps with
    | some t => (t % 256).toNat
    | none => 0x80

/-- The highest condition level of any bin (R182). -/
def State.worstLevel (s : State) : Level :=
  if s.inv.bins.toList.any (·.level == .critical) then .critical
  else if s.inv.bins.toList.any (·.level == .advisory) then .advisory
  else .normal

/-- The lowest-numbered bin at the worst level, 0 when it is NORMAL (R182). -/
def State.worstBin (s : State) : Nat :=
  if s.worstLevel = .normal then 0
  else match (List.finRange 28).find? fun i => (s.bin i).level == s.worstLevel with
    | some i => i.val + 1
    | none => 0

/-- The FAULTED segments (R182). -/
def State.faultedCount (s : State) : Nat := s.rc.segments.toList.countP (·.state == .faulted)

/-- The storage fill figure (R71). -/
def State.storageFill (s : State) : Nat :=
  let bins := s.inv.bins.toList.filter (·.kind == .storage)
  fillPercent ((bins.map BinRec.mass).sum) ((bins.map (·.capacity)).sum)

/-- A bit for each SILENT port (R182). DESIGN CHOICE: in CONFIG_FAULT the bits are shown as held, also when the link
area has failed (log entry 33). -/
def State.silentPorts (s : State) : Nat := (allPorts.map fun p => bit (portNo p) (s.port p).silent).sum

/-- PLANT_CLEAR (R183). -/
def State.plantClear (s : State) : Bool :=
  s.inv.bins.toList.all (·.level == .normal) && s.rc.segments.toList.all (·.state != .faulted)
    && allPorts.all (fun p => !(s.port p).silent) && s.btu.fresh

/-- The terminal flags (R182). -/
def State.terminalFlags (s : State) : Nat :=
  bit 0 s.inv.balance.isOpen + bit 1 s.clock.isSome + bit 2 s.plantClear + bit 3 (!s.btu.fresh)

/-- The claims in state RUNNING (R182). -/
def State.runningClaims (s : State) : Nat := s.rc.claims.countP fun c => c.runs fun _ => true

/-- The terminal summary (R182). DESIGN CHOICE: in CONFIG_FAULT, where the mirror is not read, the plant event count is
the one the EVR then holds and not 0 (R181; log entry 33). -/
def State.summary (s : State) : List Byte :=
  u8 s.phase.readiness ++ u8 s.terminalFlags ++ u8 s.silentPorts ++ u8 s.hottestCode ++ u8 s.worstLevel.code
    ++ u8 s.worstBin ++ u8 s.faultedCount ++ u8 s.storageFill ++ u8 s.tlr.tickets.length ++ u8 s.runningClaims
    ++ u8 s.btu.state.code ++ u32 s.btu.cargo ++ u32 s.btu.ceiling ++ u32 s.evr.count

/-- STATUS (R182). -/
def Ev.status (p : Port) (body : List Byte) (e : Ev) : Ev :=
  if body = [] then e.reply p .ok e.st.summary else e.reply p .range []

/-- The meaning of STATUS (R5, R182). -/
def execStatus (p : Port) (seq : Byte) (body : List Byte) (s : State) : Result :=
  .next (s.request .status p seq (Ev.status p body))

/-! ### READ EVENTS (R180) -/

/-- The answer of READ EVENTS (R180). -/
def Evr.answer (r : Evr) (start : Nat) : List Byte :=
  let xs := (r.ring.filter fun x => decide (max start 1 ≤ x.seq)).take 8
  u32 r.count ++ u32 (match r.ring with | x :: _ => x.seq | [] => 0) ++ u8 xs.length ++ xs.flatMap Event.entry

/-- READ EVENTS (R180). -/
def Ev.readEvents (p : Port) (body : List Byte) (e : Ev) : Ev :=
  match fields [4] body with
  | some [start] => e.reply p .ok (e.st.evr.answer start)
  | _ => e.reply p .range []

/-- The meaning of READ EVENTS (R5, R180). -/
def execReadEvents (p : Port) (seq : Byte) (body : List Byte) (s : State) : Result :=
  .next (s.request .readEvents p seq (Ev.readEvents p body))

/-! ### SET CLOCK (R177) -/

/-- SET CLOCK (R177). -/
def Ev.setClock (p : Port) (body : List Byte) (e : Ev) : Ev :=
  match fields [4] body with
  | some [value] =>
    if value = 0 then e.reply p .range []
    else
      let before := e.st.term
      (e.map fun s => { s with clock := some { value, at_ := s.secs } }).reply p .ok (u32 before ++ u32 value)
  | _ => e.reply p .range []

/-- The meaning of SET CLOCK (R5, R177). -/
def execSetClock (p : Port) (seq : Byte) (body : List Byte) (s : State) : Result :=
  .next (s.request .setClock p seq (Ev.setClock p body))

end Sys2Proof.Machine
end

