-- ==== Sys2Proof/Machine/Dispatch.lean ====
section
/-! DEFINITION. One arm for each command, each a direct call of its meaning. -/
namespace Sys2Proof.Machine

/-- The effect of a command on everything but the queue. -/
def exec (i : Instr) (s : State) : Host.Outcome State Fault Refusal :=
  match i with
  | .powerOn => Sys2Proof.Machine.execPowerOn s
  | .resetNAsserted left => Sys2Proof.Machine.execResetNAsserted left s
  | .resetNReleased => Sys2Proof.Machine.execResetNReleased s
  | .configurationLoaded => Sys2Proof.Machine.execConfigurationLoaded s
  | .mirrorLoaded => Sys2Proof.Machine.execMirrorLoaded s
  | .frameError p chars => Sys2Proof.Machine.execFrameError p chars s
  | .interCharacterTimeout p chars => Sys2Proof.Machine.execInterCharacterTimeout p chars s
  | .collided p kind => Sys2Proof.Machine.execCollided p kind s
  | .undefinedKindRequest p seq kind => Sys2Proof.Machine.execUndefinedKindRequest p seq kind s
  | .portReset p => Sys2Proof.Machine.execPortReset p s
  | .transmissionStart p => Sys2Proof.Machine.execTransmissionStart p s
  | .answerSent p => Sys2Proof.Machine.execAnswerSent p s
  | .noticeSent p => Sys2Proof.Machine.execNoticeSent p s
  | .silenceTimeout p => Sys2Proof.Machine.execSilenceTimeout p s
  | .watchExpired p => Sys2Proof.Machine.execWatchExpired p s
  | .status p seq body => Sys2Proof.Machine.execStatus p seq body s
  | .readRecord p seq body => Sys2Proof.Machine.execReadRecord p seq body s
  | .watch p seq body => Sys2Proof.Machine.execWatch p seq body s
  | .cancelWatch p seq body => Sys2Proof.Machine.execCancelWatch p seq body s
  | .readEvents p seq body => Sys2Proof.Machine.execReadEvents p seq body s
  | .openTicket p seq body => Sys2Proof.Machine.execOpenTicket p seq body s
  | .captureGross p seq body => Sys2Proof.Machine.execCaptureGross p seq body s
  | .enterSample p seq body => Sys2Proof.Machine.execEnterSample p seq body s
  | .assignPit p seq body => Sys2Proof.Machine.execAssignPit p seq body s
  | .reportDumped p seq body => Sys2Proof.Machine.execReportDumped p seq body s
  | .captureTare p seq body => Sys2Proof.Machine.execCaptureTare p seq body s
  | .voidTicket p seq body => Sys2Proof.Machine.execVoidTicket p seq body s
  | .zeroBridge p seq body => Sys2Proof.Machine.execZeroBridge p seq body s
  | .placeHold p seq body => Sys2Proof.Machine.execPlaceHold p seq body s
  | .releaseHold p seq body => Sys2Proof.Machine.execReleaseHold p seq body s
  | .setCeiling p seq body => Sys2Proof.Machine.execSetCeiling p seq body s
  | .lockCeiling p seq body => Sys2Proof.Machine.execLockCeiling p seq body s
  | .unlockCeiling p seq body => Sys2Proof.Machine.execUnlockCeiling p seq body s
  | .freezeCeilings p seq body => Sys2Proof.Machine.execFreezeCeilings p seq body s
  | .adjustMass p seq body => Sys2Proof.Machine.execAdjustMass p seq body s
  | .acceptBalance p seq body => Sys2Proof.Machine.execAcceptBalance p seq body s
  | .claimRoute p seq body => Sys2Proof.Machine.execClaimRoute p seq body s
  | .startTransfer p seq body => Sys2Proof.Machine.execStartTransfer p seq body s
  | .reportMass p seq body => Sys2Proof.Machine.execReportMass p seq body s
  | .drainExpiry claim => Sys2Proof.Machine.execDrainExpiry claim s
  | .releaseClaim p seq body => Sys2Proof.Machine.execReleaseClaim p seq body s
  | .reportSegmentMotion p seq body => Sys2Proof.Machine.execReportSegmentMotion p seq body s
  | .clearSegmentFault p seq body => Sys2Proof.Machine.execClearSegmentFault p seq body s
  | .closeFeed p seq body => Sys2Proof.Machine.execCloseFeed p seq body s
  | .reportBatchOut p seq body => Sys2Proof.Machine.execReportBatchOut p seq body s
  | .startSurvey p seq body => Sys2Proof.Machine.execStartSurvey p seq body s
  | .abortSurvey p seq body => Sys2Proof.Machine.execAbortSurvey p seq body s
  | .berthBarge p seq body => Sys2Proof.Machine.execBerthBarge p seq body s
  | .amendPlan p seq body => Sys2Proof.Machine.execAmendPlan p seq body s
  | .reportStage p seq body => Sys2Proof.Machine.execReportStage p seq body s
  | .closeBarge p seq body => Sys2Proof.Machine.execCloseBarge p seq body s
  | .stageStale => Sys2Proof.Machine.execStageStale s
  | .setClock p seq body => Sys2Proof.Machine.execSetClock p seq body s
  | .restart p seq body => Sys2Proof.Machine.execRestart p seq body s
  | .writeConfigurationArea p seq body => Sys2Proof.Machine.execWriteConfigurationArea p seq body s
  | .readConfigurationArea p seq body => Sys2Proof.Machine.execReadConfigurationArea p seq body s
  | .configWriteTimeout left => Sys2Proof.Machine.execConfigWriteTimeout left s
  | .mirrorWriteStart => Sys2Proof.Machine.execMirrorWriteStart s
  | .storeStatusPoll status => Sys2Proof.Machine.execStoreStatusPoll status s
  | .mirrorWriteTimeout left => Sys2Proof.Machine.execMirrorWriteTimeout left s
  | .wsiIdle => Sys2Proof.Machine.execWsiIdle s
  | .sampleArrival word => Sys2Proof.Machine.execSampleArrival word s
  | .stalenessTimerExpiry => Sys2Proof.Machine.execStalenessTimerExpiry s
  | .captureDeadline => Sys2Proof.Machine.execCaptureDeadline s
  | .pollCycleExpiry => Sys2Proof.Machine.execPollCycleExpiry s
  | .busTransactionStart => Sys2Proof.Machine.execBusTransactionStart s
  | .convertComplete sent => Sys2Proof.Machine.execConvertComplete sent s
  | .pollConversionWait => Sys2Proof.Machine.execPollConversionWait s
  | .readPointsEnd reply => Sys2Proof.Machine.execReadPointsEnd reply s
  | .selfCheckEnd acknowledged => Sys2Proof.Machine.execSelfCheckEnd acknowledged s
  | .surveyConversionWait => Sys2Proof.Machine.execSurveyConversionWait s
  | .clockHoldTimeout => Sys2Proof.Machine.execClockHoldTimeout s
  | .powerLoss left => Sys2Proof.Machine.execPowerLoss left s
  | .lineReturnsToIdle p => Sys2Proof.Machine.execLineReturnsToIdle p s

end Sys2Proof.Machine
end

