-- ==== Sys2Proof/Machine/Step.lean ====
section
/-! DEFINITION. One step: the command at the front of the queue, or one millisecond of idling. -/
namespace Sys2Proof.Machine

/-- A step with no command waiting: one millisecond of CLK24 passes while the part has power and is out of
reset (R177; log entry 2). -/
def State.idle (s : State) : State :=
  match s.phase with
  | .off | .resetHeld => s
  | .loadConfig | .loadMirror | .configFault | .ready | .restarting => { s with ms := s.ms + 1 }

/-- One step. -/
def step (s : State) : Host.Outcome State Fault Refusal :=
  match s.pending with
  | [] => .next s.idle
  | c :: rest => exec c { s with pending := rest }

/-- The state with the command a word spells at the front of its queue. -/
def State.withFetchWord (s : State) (nbits w : Nat) : State :=
  match decodeTableWord nbits w with
  | some c => { s with pending := c :: s.pending }
  | none => s

end Sys2Proof.Machine
end

