-- ==== Sys2Proof/Safety.lean ====
section
/-! DEFINITION. What a safe run is, and the words the claims are stated in: a request that is taken, the state
that differs by its answer alone, and the laws every step keeps. -/
namespace Sys2Proof

/-- The command that carries a request of a kind (R5). -/
def Machine.ReqKind.command (p : Port) (seq : Byte) (body : List Byte) : Machine.ReqKind → Instr
  | .status => .status p seq body
  | .readRecord => .readRecord p seq body
  | .watch => .watch p seq body
  | .cancelWatch => .cancelWatch p seq body
  | .readEvents => .readEvents p seq body
  | .openTicket => .openTicket p seq body
  | .captureGross => .captureGross p seq body
  | .enterSample => .enterSample p seq body
  | .assignPit => .assignPit p seq body
  | .reportDumped => .reportDumped p seq body
  | .captureTare => .captureTare p seq body
  | .voidTicket => .voidTicket p seq body
  | .zeroBridge => .zeroBridge p seq body
  | .placeHold => .placeHold p seq body
  | .releaseHold => .releaseHold p seq body
  | .setCeiling => .setCeiling p seq body
  | .lockCeiling => .lockCeiling p seq body
  | .unlockCeiling => .unlockCeiling p seq body
  | .freezeCeilings => .freezeCeilings p seq body
  | .adjustMass => .adjustMass p seq body
  | .acceptBalance => .acceptBalance p seq body
  | .claimRoute => .claimRoute p seq body
  | .startTransfer => .startTransfer p seq body
  | .reportMass => .reportMass p seq body
  | .releaseClaim => .releaseClaim p seq body
  | .reportSegmentMotion => .reportSegmentMotion p seq body
  | .clearSegmentFault => .clearSegmentFault p seq body
  | .closeFeed => .closeFeed p seq body
  | .reportBatchOut => .reportBatchOut p seq body
  | .startSurvey => .startSurvey p seq body
  | .abortSurvey => .abortSurvey p seq body
  | .berthBarge => .berthBarge p seq body
  | .amendPlan => .amendPlan p seq body
  | .reportStage => .reportStage p seq body
  | .closeBarge => .closeBarge p seq body
  | .setClock => .setClock p seq body
  | .restart => .restart p seq body
  | .writeConfigurationArea => .writeConfigurationArea p seq body
  | .readConfigurationArea => .readConfigurationArea p seq body

namespace Machine

/-! ### Requests that are taken -/

/-- A request of a kind that arrives at port `p` now enters an EMPTY slot and passes every check of the SLP
(R4, R5). -/
def State.accepts (s : State) (k : ReqKind) (p : Port) : Prop :=
  s.hears p = true ∧ (s.port p).slot = .empty ∧ p ∈ k.stations ∧ k.admittedIn s.phase = true

/-- The slot of a port holds an answer to a request. -/
def State.answers (s : State) (k : ReqKind) (p : Port) (seq : Byte) (code : Code) (body : List Byte) : Prop :=
  (s.port p).slot = .answering ⟨seq, k.code, code, body⟩ none

/-- A port right after a valid frame of a kind has been taken and answered: HEARD, its silence timer
restarted, its receiver HUNTING, the answer in its slot (R2, R4, R6). -/
def SlpPort.answered (q : SlpPort) (now : Nat) (kind seq : Byte) (code : Code) (body : List Byte) : SlpPort :=
  { q with receiver := .hunting, silent := false, timer := some now, slot := .answering ⟨seq, kind, code, body⟩ none }

/-- The state that differs from `s` by an answer at port `p` and by nothing else. -/
def State.answeredAt (s : State) (k : ReqKind) (p : Port) (seq : Byte) (code : Code) (body : List Byte) : State :=
  s.modPort p (·.answered s.ms k.code seq code body)

/-- The other ports after one revision change of a record, with no notice raised: a watch parked on it has
ended, and nothing else has changed (R10, R14). -/
def State.othersTold (s t : State) (p : Port) (r : RecRef) (rev : Nat) : Prop :=
  ∀ q, q ≠ p → t.port q = (s.port q).endWatch r .changed (u16 rev)

/-- What no record change, notice or answer touches at a port: its receiver, its silence and its
transmission. -/
def State.linesKept (s t : State) (p : Port) : Prop :=
  ∀ q, q ≠ p → (t.port q).receiver = (s.port q).receiver ∧ (t.port q).silent = (s.port q).silent
    ∧ (t.port q).timer = (s.port q).timer ∧ (t.port q).tx = (s.port q).tx

/-! ### The laws every step keeps -/

/-- The stated sizes: a notice queue at most 8 (R9), a sample window at most 16 (R23), the recent ring at most
16 (R114), the survey log at most 8 (R151), the event ring at most 64 (R178). -/
def State.bounded (s : State) : Prop :=
  (∀ p, (s.port p).notices.length ≤ 8) ∧ s.wbu.window.length ≤ 16 ∧ s.rc.ring.length ≤ 16
    ∧ s.cdm.log.length ≤ 8 ∧ s.evr.ring.length ≤ 64

/-- The permit law of R120: a permit line is asserted exactly while a RUNNING claim holds its segment, the
claim table holds at most 8 claims of distinct numbers (R99), and no claim exists while the part is not READY. -/
def State.permitLaw (s : State) : Prop :=
  (∀ i, (s.seg i).permit = true ↔ ∃ c ∈ s.rc.claims, c.runs (fun _ => true) = true ∧ (s.seg i).state = .held c.number)
    ∧ s.rc.claims.length ≤ 8 ∧ (s.rc.claims.map (·.number)).Nodup ∧ (s.phase ≠ .ready → s.rc.claims = [])

/-- The hold law of R88: a bin under a quality hold is the destination of no RUNNING transfer, and the source
of none to any location but REJECT. -/
def State.holdLaw (s : State) : Prop :=
  ∀ c ∈ s.rc.claims, ∀ x, c.state = .running x → ∀ i, (s.bin i).hold.isSome = true →
    x.dest ≠ .bin i ∧ (x.source = .bin i → x.dest = .reject)

/-- The ticket law of R40: at most 12 open tickets, and never more than the free lot entries. -/
def State.ticketLaw (s : State) : Prop :=
  s.tlr.tickets.length ≤ 12 ∧ s.tlr.tickets.length + s.tlr.lots.length ≤ 400

/-- The retained store is in canonical form. -/
def State.storeLaw (s : State) : Prop := s.rsc.store.wf = true

/-- A safe state: every law holds. -/
def State.safe (s : State) : Prop := s.bounded ∧ s.permitLaw ∧ s.holdLaw ∧ s.ticketLaw ∧ s.storeLaw

end Machine
end Sys2Proof
end

