-- ==== Sys2Proof/Certificates/Slice0/Obligations.lean ====
section
/-! DEFINITION. The statements of this package: what the commands and the machine do. -/
open Sys2Proof Sys2Proof.Machine

/-- One step runs the command at the front of the queue, or one millisecond passes. Basis: 00_scope.md;
10_retained_store_and_start_up.md, section 10.4 (R177). -/
def Obligations.StepRunsTheFrontCommand : Prop :=
  (∀ (c : Instr) (rest : List Instr) (s : State),
    step { s with pending := c :: rest } = exec c { s with pending := rest }) ∧
  ∀ s : State, s.pending = [] →
    ((s.phase = .off ∨ s.phase = .resetHeld) → step s = .next s) ∧
    (s.phase ≠ .off → s.phase ≠ .resetHeld → step s = .next { s with ms := s.ms + 1 })

/-- Every command answers a next state and leaves the queue alone. Basis: 00_scope.md;
10_retained_store_and_start_up.md, section 10.3. -/
def Obligations.EveryCommandCompletes : Prop :=
  ∀ (c : Instr) (s : State), ∃ t, exec c s = .next t ∧ t.pending = s.pending

/-- Every step keeps the retained store in canonical form. Basis: 10_retained_store_and_start_up.md, section 10.2
(R172, R173, R174). -/
def Obligations.EveryStepKeepsTheStoreCanonical : Prop :=
  ∀ s t : State, s.storeLaw → step s = .next t → t.storeLaw

/-- Every step keeps each queue, window, ring and log within its stated size. Basis: 01_station_links.md, section
1.6 (R9); 02_weighbridge.md, section 2.3 (R23); 06_routes_claims_and_transfers.md, section 6.7 (R114);
08_grain_condition_and_rotation.md, section 8.8 (R151); 11_plant_events_and_terminal_summary.md, section 11.1
(R178). -/
def Obligations.EveryStepKeepsTheStatedSizes : Prop :=
  ∀ s t : State, s.bounded → step s = .next t → t.bounded

/-- Every step keeps each permit line asserted exactly while a RUNNING claim holds its segment. Basis:
06_routes_claims_and_transfers.md, section 6.9 (R120); 06_routes_claims_and_transfers.md, section 6.3 (R99,
R100). -/
def Obligations.EveryStepKeepsThePermitLaw : Prop :=
  ∀ s t : State, s.permitLaw → step s = .next t → t.permitLaw

/-- Every step keeps at most 12 open tickets, never more than the free lot entries. Basis: 03_tickets_and_lots.md,
section 3.1 (R36); 03_tickets_and_lots.md, section 3.2 (R39, R40). -/
def Obligations.EveryStepKeepsTheTicketLaw : Prop :=
  ∀ s t : State, s.phase ≠ .loadMirror → s.ticketLaw → step s = .next t → t.ticketLaw

/-- The state after reset meets every law. Basis: 10_retained_store_and_start_up.md, section 10.3 (R175);
06_routes_claims_and_transfers.md, section 6.9 (R120). -/
def Obligations.ResetIsSafe : Prop := State.reset.safe

/-- At each start-up every port begins HUNTING, EMPTY, with clear flags, no notices, HEARD and the default rate.
Basis: R18. -/
def Obligations.StartUpBeginsEveryLinkAfresh : Prop :=
  (∀ s : State, s.phase = .off → exec .powerOn s = .next (State.startUp s.rsc.store s.pending)) ∧
  (∀ s : State, s.phase = .resetHeld → exec .resetNReleased s = .next (State.startUp s.rsc.store s.pending)) ∧
  (∀ s : State, s.phase = .restarting → s.rsc.write = none → s.rsc.jobs = [] → s.rsc.queue = [] →
    s.finishRestart = State.startUp s.rsc.store s.pending) ∧
  (∀ (m : Store) (cs : List Instr) (p : Port), (State.startUp m cs).port p =
    { receiver := .hunting, slot := .empty, flags := ⟨false, false, false, false⟩, notices := [], silent := false,
      timer := some 0, tx := none }) ∧
  (∀ (m : Store) (cs : List Instr), (State.startUp m cs).ms = 0 ∧
    (State.startUp m cs).link = { divisor := ⟨155, 155, 155, 155, 155⟩, silence := 15 } ∧
    (State.startUp m cs).rsc.store = m ∧ (State.startUp m cs).pending = cs ∧ (State.startUp m cs).phase = .loadConfig)

/-- A body reads as numeric fields exactly when it is those fields, each most significant byte first, and nothing
more. Basis: 01_station_links.md, section 1.2 (R3). -/
def Obligations.FieldsAreReadMostSignificantByteFirst : Prop :=
  ∀ (ws : List Nat) (body : List Byte) (xs : List Nat),
    fields ws body = some xs ↔
      xs.length = ws.length ∧ (∀ x ∈ ws.zip xs, x.2 < 256 ^ x.1) ∧ body = (ws.zip xs).flatMap fun x => be x.1 x.2

/-- A frame that ends in a frame error sets FRAME_ERROR, returns the receiver to HUNTING and does nothing else. The
model's choices in it: log entry 5, by which characters that spell a valid frame are not acted on here, its
arrival being a command of its own. Basis: 01_station_links.md, section 1.2 (R2). -/
def Obligations.FrameErrorsSetOnlyTheirFlag : Prop :=
  ∀ (p : Port) (s : State), s.hears p = true →
    let failed (s : State) : State :=
      s.modPort p fun q => { q with receiver := .hunting, flags := { q.flags with frameError := true } }
    let good (bs : List Byte) : List RxChar := bs.map fun b => ⟨b, true⟩
    let begun (bs : List Byte) : Prop :=
      bs = [] ∨ ∃ (len : Byte) (rest : List Byte), bs = len :: rest ∧ len.toNat ≤ 240 ∧ rest.length < len.toNat + 3
    ((s.port p).receiver = .hunting →
      (∀ len : Byte, 240 < len.toNat →
        exec (.frameError p [⟨0xC3, true⟩, ⟨len, true⟩]) s = .next (failed s)) ∧
      (∀ (len : Byte) (rest : List Byte), len.toNat ≤ 240 → rest.length = len.toNat + 3 →
        exec (.frameError p ((0xC3 :: len :: rest).map fun b => ⟨b, true⟩)) s
          = .next (if sumBytes (len :: rest) = 0 then s else failed s)) ∧
      (∀ bs, begun bs → exec (.interCharacterTimeout p (good (0xC3 :: bs))) s = .next (failed s))) ∧
    (∀ got : List Byte, (s.port p).receiver = .inFrame got →
      (∀ b : Byte, exec (.frameError p [⟨b, false⟩]) s = .next (failed s)) ∧
      (∀ bs, begun (got ++ bs) → exec (.interCharacterTimeout p (good bs)) s = .next (failed s)))

/-- A request is not heard, or refused ROLE or NOT_READY, before its owner sees it, and then changes nothing but its
port. The model's choices in it: log entry 25 (these three answers have no other result body) and log entry 4 (a
frame at a port that does not hear, for want of power, in RESET_N, in a RESTART, in a break or in a
transmission, has no effect). Basis: 01_station_links.md, section 1.3 (R4, R5); 01_station_links.md, section 1.5
(R7); 10_retained_store_and_start_up.md, section 10.3 (R175); 02_weighbridge.md, section 2.4 (R28);
08_grain_condition_and_rotation.md, section 8.8 (R148). -/
def Obligations.RoleAndReadinessAreCheckedInOrder : Prop :=
  (∀ (k : ReqKind) (p : Port) (seq : Byte) (body : List Byte) (s : State),
    let report : List Byte := match k with
      | .zeroBridge => s.bridgeReport
      | .startSurvey | .abortSurvey => s.surveyReport
      | _ => []
    (s.hears p = false → exec (k.command p seq body) s = .next s) ∧
    (s.hears p = true → (s.port p).slot = .empty →
      (p ∉ k.stations → exec (k.command p seq body) s = .next (s.answeredAt k p seq .role report)) ∧
      (p ∈ k.stations → k.admittedIn s.phase = false →
        exec (k.command p seq body) s = .next (s.answeredAt k p seq .notReady report)))) ∧
  ∀ (p : Port) (seq kind : Byte) (s : State), s.hears p = true → (s.port p).slot = .empty →
    (∀ k : ReqKind, k.code ≠ kind) →
    exec (.undefinedKindRequest p seq kind) s = .next (s.modPort p (·.answered s.ms kind seq .range []))

/-- A valid frame at an occupied slot is discarded with COLLIDED and makes the port HEARD; only CANCEL WATCH is
taken, at a PARKED slot. The model's choices in it: log entry 17 (the body of a CANCEL WATCH at a PARKED slot is
not examined). Basis: 01_station_links.md, section 1.3 (R4); 01_station_links.md, section 1.7 (R15). -/
def Obligations.AnOccupiedSlotCollides : Prop :=
  ∀ (p : Port) (seq : Byte) (body : List Byte) (s : State), s.hears p = true →
    let collided : State :=
      s.modPort p fun q => { q with receiver := .hunting, silent := false, timer := some s.ms,
                                    flags := { q.flags with collided := true } }
    ((∃ n kind, (s.port p).slot = .acting n kind) ∨ (∃ a b, (s.port p).slot = .answering a b) →
      (∀ k : ReqKind, exec (k.command p seq body) s = .next collided) ∧
      (∀ kind : Byte, exec (.collided p kind) s = .next collided) ∧
      (∀ kind : Byte, (∀ k : ReqKind, k.code ≠ kind) → exec (.undefinedKindRequest p seq kind) s = .next collided)) ∧
    (∀ n w, (s.port p).slot = .parked n w →
      (∀ k : ReqKind, k ≠ .cancelWatch → exec (k.command p seq body) s = .next collided) ∧
      (∀ kind : Byte, kind ≠ 0x04 → exec (.collided p kind) s = .next collided) ∧
      (∀ kind : Byte, (∀ k : ReqKind, k.code ≠ kind) → exec (.undefinedKindRequest p seq kind) s = .next collided) ∧
      exec (.cancelWatch p seq body) s
        = .next (s.modPort p fun q =>
            { q with receiver := .hunting, silent := false, timer := some s.ms,
                     slot := .answering ⟨n, 0x03, .cancelled, []⟩ (some ⟨seq, 0x04, .ok, []⟩) }))

/-- A line break resets its port, drops its capture and its claim on a configuration answer, and touches nothing
else. The model's choices in it: log entry 4 (a port without power, in RESET_N or in a RESTART does not hear;
one that transmits or is in the same break does not by R7 and R17). Basis: 01_station_links.md, section 1.9
(R17); 02_weighbridge.md, section 2.5 (R34); 10_retained_store_and_start_up.md, section 10.1 (R169). -/
def Obligations.PortResetClearsOnePort : Prop :=
  ∀ (p : Port) (s : State),
    (s.hears p = true → ∃ t, exec (.portReset p) s = .next t ∧
      t = { s with ports := t.ports, wbu := { s.wbu with capture := t.wbu.capture },
                   rsc := { s.rsc with jobs := t.rsc.jobs } } ∧
      t.port p = { receiver := .inBreak, slot := .empty, flags := ⟨false, false, false, false⟩, notices := [],
                   silent := false, timer := some s.ms, tx := none } ∧
      (∀ q, q ≠ p → t.port q = s.port q) ∧
      (∀ c, t.wbu.capture = some c ↔ s.wbu.capture = some c ∧ c.port ≠ p) ∧
      t.rsc.jobs.length = s.rsc.jobs.length ∧
      ∀ (n : Nat) (j : ConfigJob), s.rsc.jobs[n]? = some j →
        t.rsc.jobs[n]? = some (if j.port = some p then { j with port := none } else j)) ∧
    (s.hears p = false → exec (.portReset p) s = .next s) ∧
    (s.live = true → (s.port p).receiver = .inBreak →
      exec (.lineReturnsToIdle p) s = .next (s.modPort p fun q => { q with receiver := .hunting }))

/-- A transmission takes the waiting answer with the port's flags and clears them, or else the oldest notice; its
end empties the slot or shortens the queue. Basis: 01_station_links.md, section 1.4 (R6); 01_station_links.md,
section 1.5 (R7); 01_station_links.md, section 1.6 (R9); 01_station_links.md, section 1.7 (R15). -/
def Obligations.TransmissionsSendAnswersFirst : Prop :=
  (∀ (a : Answer) (f : PortFlags), a.body.length ≤ 238 →
    (a.frame f).take (6 + a.body.length)
      = [0xC3, BitVec.ofNat 8 (a.body.length + 2), a.seq, a.kind + 0x80, a.code.byte, BitVec.ofNat 8 f.byte] ++ a.body ∧
    (a.frame f).length = a.body.length + 7 ∧ sumBytes ((a.frame f).drop 1) = 0) ∧
  ∀ (p : Port) (s : State), s.live = true →
    ((s.port p).receiver = .hunting → (s.port p).tx = none →
      (∀ a b, (s.port p).slot = .answering a b →
        exec (.transmissionStart p) s = .next (s.modPort p fun q =>
          { q with tx := some (.answer (a.frame q.flags)), flags := ⟨false, false, false, false⟩ })) ∧
      (∀ n ns, (∀ a b, (s.port p).slot ≠ .answering a b) → (s.port p).notices = n :: ns →
        exec (.transmissionStart p) s = .next (s.modPort p fun q =>
          { q with tx := some (.notice (Machine.frame 0 n.kind.byte n.body)) }))) ∧
    (∀ f a b, (s.port p).tx = some (.answer f) → (s.port p).slot = .answering a b →
      ¬(a.kind = 0x59 ∧ a.code = .ok) →
      exec (.answerSent p) s = .next (s.modPort p fun q =>
        { q with tx := none, slot := match b with | some b => .answering b none | none => .empty })) ∧
    (∀ f n ns, (s.port p).tx = some (.notice f) → (s.port p).notices = n :: ns →
      exec (.noticeSent p) s = .next (s.modPort p fun q => { q with tx := none, notices := ns }))

/-- When a HEARD port's silence timer expires the port is SILENT, its RUNNING claims drain and its CLAIMED claims
are gone. The model's choices in it: log entry 3 (the time an expiry leaves). Basis: 01_station_links.md,
section 1.8 (R16); 01_station_links.md, section 1.6 (R9); 06_routes_claims_and_transfers.md, section 6.7 (R111,
R112). -/
def Obligations.SilenceTripsAndFreesTheStationsClaims : Prop :=
  ∀ (p : Port) (s : State) (start : Nat), s.live = true → (s.port p).silent = false → (s.port p).timer = some start →
    (s.rc.claims.map (·.number)).Nodup →
    ∃ t, exec (.silenceTimeout p) s = .next t ∧
      (t.port p).silent = true ∧ (t.port p).timer = none ∧ (t.port p).flags.silentTripped = true ∧
      t.ms = max s.ms (start + 1000 * s.link.silence) ∧
      (∀ c ∈ t.rc.claims, c.holder = p → ∃ x due, c.state = .draining x due) ∧
      (∀ c ∈ s.rc.claims, (c.holder ≠ p ∨ ∃ x due, c.state = .draining x due) → c ∈ t.rc.claims) ∧
      (∀ c ∈ t.rc.claims, c.holder ≠ p → c ∈ s.rc.claims) ∧
      (∀ c ∈ s.rc.claims, c.holder = p → (∃ x, c.state = .running x) →
        ∃ d ∈ t.rc.claims, d.number = c.number ∧ ∃ x due, d.state = .draining x due ∧ x.cause = some .silence) ∧
      (∀ q, (t.port q).slot = (s.port q).slot ∨ ∃ n w code x, (s.port q).slot = .parked n w ∧
        (t.port q).slot = .answering ⟨n, 0x03, code, x⟩ none ∧ (code = .changed ∨ code = .gone)) ∧
      (∀ q, (t.port q).notices.getLast? = some ⟨.stationSilent, [BitVec.ofNat 8 (portNo p)]⟩ ∨
        (8 ≤ (t.port q).notices.length ∧ (t.port q).flags.noticeOverrun = true)) ∧
      (∃ r, r.standing = s.evr.standing ∧
        t.evr = ({ t with evr := r }.logEvent .stationSilent (.port (portNo p)) 0).evr) ∧
      State.linesKept s t p ∧
      t.wbu = s.wbu ∧ t.tlr = s.tlr ∧ t.cfg = s.cfg ∧ t.clock = s.clock ∧ t.rsc.store = s.rsc.store

/-- WATCH parks when the revision is the expected one, and otherwise is answered CHANGED with the current revision,
NOT_FOUND or RANGE. Basis: 01_station_links.md, section 1.7 (R13). -/
def Obligations.WatchParksOrAnswersChanged : Prop :=
  ∀ (p : Port) (seq : Byte) (body : List Byte) (s : State) (kind index expected timeout : Nat),
    s.accepts .watch p → fields [1, 2, 2, 2] body = some [kind, index, expected, timeout] →
    match recOf kind index with
    | none => exec (.watch p seq body) s = .next (s.answeredAt .watch p seq .range [])
    | some r =>
      match s.rev r with
      | none => exec (.watch p seq body) s = .next (s.answeredAt .watch p seq .notFound [])
      | some rev =>
        (rev ≠ expected → exec (.watch p seq body) s = .next (s.answeredAt .watch p seq .changed (u16 rev))) ∧
        (rev = expected → exec (.watch p seq body) s = .next (s.modPort p fun q =>
          { q with receiver := .hunting, silent := false, timer := some s.ms,
                   slot := .parked seq ⟨r, expected, if timeout = 0 then none else some (s.ms + 1000 * min timeout 600)⟩ }))

/-- A watch ends on the first of a revision change (CHANGED), a deletion (GONE) and its expiry (EXPIRED), and later
ones leave its answer. The model's choices in it: log entry 3 (the time an expiry leaves, and that one with no
watch parked has no effect). Basis: 01_station_links.md, section 1.7 (R10, R14, R15). -/
def Obligations.WatchesEndOnceOnTheFirstEvent : Prop :=
  (∀ (p : Port) (s : State) (n : Byte) (w : Watch) (r : RecRef) (rev : Nat),
    (s.port p).slot = .parked n w → s.rev r = some rev →
    (s.revise r).rev r = some (if rev ≥ 65535 then 1 else rev + 1) ∧
    ((s.revise r).port p).slot =
      if w.subject = r then .answering ⟨n, 0x03, .changed, u16 (if rev ≥ 65535 then 1 else rev + 1)⟩ none
      else .parked n w) ∧
  (∀ (p : Port) (s : State) (n : Byte) (w : Watch) (due : Nat),
    s.live = true → (s.port p).slot = .parked n w → w.expiry = some due →
    exec (.watchExpired p) s = .next ({ s with ms := max s.ms due }.modPort p fun q =>
      { q with slot := .answering ⟨n, 0x03, .expired, []⟩ none })) ∧
  (∀ (p : Port) (s : State) (n : Byte) (w : Watch) (r : RecRef) (x : List Byte), (s.port p).slot = .parked n w →
    ((s.reportDeletion r x).port p).slot =
      if w.subject = r then .answering ⟨n, 0x03, .gone, x⟩ none else .parked n w) ∧
  (∀ (p : Port) (s : State) (a : Answer) (b : Option Answer) (r : RecRef) (x : List Byte),
    (s.port p).slot = .answering a b →
    ((s.revise r).port p).slot = .answering a b ∧ ((s.reportDeletion r x).port p).slot = .answering a b ∧
    exec (.watchExpired p) s = .next s) ∧
  (∀ (p : Port) (seq : Byte) (s : State), s.accepts .cancelWatch p →
    exec (.cancelWatch p seq []) s = .next (s.answeredAt .cancelWatch p seq .badState []))

/-- STATUS, READ EVENTS and READ RECORD answer from the state as it stands and change nothing but their port. Basis:
11_plant_events_and_terminal_summary.md, section 11.2 (R180); 11_plant_events_and_terminal_summary.md, section
11.3 (R182); 01_station_links.md, section 1.7 (R11); 05_bins_and_layers.md, section 5.2 (R77); 07_drying.md,
section 7.1 (R125); 09_barge_loading.md, section 9.1 (R156). -/
def Obligations.ReadsChangeOnlyTheirPort : Prop :=
  (∀ (p : Port) (seq : Byte) (body : List Byte) (s : State), s.accepts .status p →
    let heard := s.modPort p fun q => { q with silent := false }
    heard.summary.length = 23 ∧
    exec (.status p seq body) s
      = .next (if body = [] then s.answeredAt .status p seq .ok heard.summary else s.answeredAt .status p seq .range [])) ∧
  (∀ (p : Port) (seq : Byte) (body : List Byte) (s : State), s.accepts .readEvents p →
    (body.length ≠ 4 → exec (.readEvents p seq body) s = .next (s.answeredAt .readEvents p seq .range [])) ∧
    ∀ start, fields [4] body = some [start] →
      let shown := (s.evr.ring.filter fun x => decide (start ≤ x.seq ∧ 1 ≤ x.seq)).take 8
      exec (.readEvents p seq body) s = .next (s.answeredAt .readEvents p seq .ok
        (u32 s.evr.count ++ u32 ((s.evr.ring.head?.map (·.seq)).getD 0) ++ u8 shown.length
          ++ shown.flatMap Event.entry))) ∧
  (∀ (p : Port) (seq : Byte) (body : List Byte) (s : State), s.accepts .readRecord p →
    let answer (code : Code) (x : List Byte) : Prop :=
      exec (.readRecord p seq body) s = .next (s.answeredAt .readRecord p seq code x)
    (body.length < 3 → answer .range []) ∧
    ∀ kind index extra, takeFields [1, 2] body = some ([kind, index], extra) →
      let at_ (d pos : Nat) : Prop := (extra = [] ∧ pos = d) ∨ ∃ b : Byte, extra = [b] ∧ pos = b.toNat
      let listed (rev : Nat) (header : Nat → Nat → List Byte) (entries : List (List Byte)) : Prop :=
        ∀ pos, at_ 0 pos →
          ((pos < entries.length ∨ (entries = [] ∧ pos = 0)) → answer .ok (u16 rev ++ listing header entries pos)) ∧
          (¬(pos < entries.length ∨ (entries = [] ∧ pos = 0)) → answer .range [])
      let whole (x : Option (List Byte)) : Prop :=
        (extra ≠ [] → answer .range []) ∧
        (extra = [] → match x with | some y => answer .ok y | none => answer .notFound [])
      (recOf kind index = none → answer .range []) ∧ (2 ≤ extra.length → answer .range []) ∧
      (∀ i, recOf kind index = some (.bin i) →
        listed (s.bin i).rev ((s.bin i).header i) ((s.bin i).layers.map Layer.entry)) ∧
      (∀ i, recOf kind index = some (.pit i) →
        listed (s.pit i).rev ((s.pit i).header i) ((s.pit i).layers.map Layer.entry)) ∧
      (recOf kind index = some .batchList →
        listed s.dru.rev (s.dru.header s.rc.dryerIn s.rc.dryerOut) (s.dru.batches.map Batch.entry)) ∧
      (recOf kind index = some .berth → ∀ n, at_ 1 n →
        let inPlan := 1 ≤ n ∧ (n ≤ s.btu.holds.length ∨ (s.btu.state = .empty ∧ n = 1))
        (inPlan → answer .ok (u16 s.btu.rev ++ s.berthListing n)) ∧ (¬inPlan → answer .range [])) ∧
      (∀ n, recOf kind index = some (.ticket n) → whole ((s.ticket n).map fun x => u16 x.rev ++ x.body)) ∧
      (∀ n, recOf kind index = some (.lot n) → whole ((s.lot n).map fun x => u16 x.rev ++ x.body)) ∧
      (∀ n, recOf kind index = some (.claim n) → whole ((s.claim n).map fun x => u16 x.rev ++ s.claimBody x)) ∧
      (∀ i, recOf kind index = some (.segment i) → whole (some (u16 (s.seg i).rev ++ (s.seg i).body i)))) ∧
  (let longest (room : Nat) (entries : List (List Byte)) (k : Nat) : Prop :=
     k ≤ entries.length ∧ (entries.take k).flatten.length ≤ room ∧
     (k < entries.length → room < (entries.take (k + 1)).flatten.length)
   (∀ (header : Nat → Nat → List Byte) (entries : List (List Byte)) (pos : Nat),
     ∃ k, listing header entries pos = header pos k ++ ((entries.drop pos).take k).flatten ∧
       longest (236 - (header pos 0).length) (entries.drop pos) k) ∧
   ∀ (s : State) (n : Nat),
     let header := s.btu.header s.rc.berthIn n
     let entries := (s.btu.holds.map BargeHold.entry).drop (n - 1)
     ∃ k, s.berthListing n = header k ++ (entries.take k).flatten ∧ longest (236 - (header 0).length) entries k)

/-- A sample sets the bridge by the first line that applies and is absorbed as zero when it may be; the displayed
mass is the nearest multiple, ties to even. The model's choices in it: log entry 47 (a STABLE sample more than
half a division from zero raises no ZERO_DRIFT, the first after start-up included: R26 is followed against the
closing text of R35). Basis: 02_weighbridge.md, section 2.1 (R19); 02_weighbridge.md, section 2.2 (R20, R21,
R22); 02_weighbridge.md, section 2.3 (R23, R24); 02_weighbridge.md, section 2.4 (R26, R27);
04_mass_moisture_and_draft_arithmetic.md, section 4.1 (R56). -/
def Obligations.SamplesSetTheBridgeAndTrackTheZero : Prop :=
  (∀ (s : State) (word : SampleWord), s.live = true →
    exec .wsiIdle s = .next { s with wbu := { s.wbu with wsi := .shifting 0 } } ∧
    (s.wbu.wsi = .aligning → exec (.sampleArrival word) s = .next s) ∧
    ∀ n, s.wbu.wsi = .shifting n →
      (s.cfg.scale = none → exec (.sampleArrival word) s = .next { s with wbu := { s.wbu with wsi := .aligning } }) ∧
      ∀ c, s.cfg.scale = some c → s.wbu.capture = none →
        let counts := word.toInt
        let raw := Int.tdiv ((counts - c.calZero - s.wbu.trackOffset) * c.span) 65536
        let window := (s.wbu.window ++ [raw]).drop (s.wbu.window.length + 1 - 16)
        let bridge : Bridge :=
          if raw > (c.capacity : Int) + 9 * c.division then .overload
          else if raw < -20 * (c.division : Int) then .underload
          else if window.length < 16 then .motion
          else if window.any fun x => window.any fun y => decide (x - y > (c.division : Int)) then .motion
          else .stable
        let weighed : Wbu :=
          { s.wbu with wsi := .aligning, window := window, latest := some counts, bridge := bridge, timer := some s.ms }
        let candidate := counts - c.calZero
        (¬(bridge = .stable ∧ 2 * raw.natAbs ≤ c.division ∧ s.wbu.zeroDrift = false) →
          exec (.sampleArrival word) s = .next { s with wbu := weighed }) ∧
        (bridge = .stable → 2 * raw.natAbs ≤ c.division → s.wbu.zeroDrift = false →
          ((candidate * c.span).natAbs * 100 ≤ c.capacity * 4 * 65536 →
            exec (.sampleArrival word) s = .next { s with wbu := { weighed with trackOffset := candidate } }) ∧
          (c.capacity * 4 * 65536 < (candidate * c.span).natAbs * 100 →
            ∃ t, exec (.sampleArrival word) s = .next t ∧ t.wbu = { weighed with zeroDrift := true } ∧
              t.evr = (s.logEvent .zeroDrift .none (Int.tdiv (candidate * c.span) 65536)).evr ∧
              (∀ q, t.port q = if q = .scale ∨ q = .office
                then (s.port q).offer ⟨.bridgeFault, 2 :: State.bridgeReport { s with wbu := t.wbu }⟩ else s.port q) ∧
              t = { s with wbu := t.wbu, ports := t.ports, evr := t.evr, rsc := { s.rsc with queue := t.rsc.queue } }))) ∧
  ∀ (d : Nat) (raw : Int), 0 < d →
    ∃ n : Int, displayed d raw = n * d ∧ 2 * (raw - n * d).natAbs ≤ d ∧ (2 * (raw - n * d).natAbs = d → n % 2 = 0)

/-- ZERO BRIDGE is BUSY during a capture, BRIDGE when not STABLE, RANGE beyond 2 % of the capacity, and otherwise
sets the zero. Basis: R28. -/
def Obligations.ZeroBridgeTakesTheFirstLineThatApplies : Prop :=
  ∀ (p : Port) (seq : Byte) (s : State), s.accepts .zeroBridge p →
    let c := s.scale
    let offset := s.wbu.latest.getD 0 - c.calZero
    let zeroed : State := { s with wbu := { s.wbu with trackOffset := offset, zeroDrift := false } }
    (s.wbu.capture.isSome → exec (.zeroBridge p seq []) s = .next (s.answeredAt .zeroBridge p seq .busy s.bridgeReport)) ∧
    (s.wbu.capture = none → s.wbu.bridge ≠ .stable →
      exec (.zeroBridge p seq []) s = .next (s.answeredAt .zeroBridge p seq .bridge s.bridgeReport)) ∧
    (s.wbu.capture = none → s.wbu.bridge = .stable → c.capacity * 2 * 65536 < (offset * c.span).natAbs * 100 →
      exec (.zeroBridge p seq []) s = .next (s.answeredAt .zeroBridge p seq .range s.bridgeReport)) ∧
    (s.wbu.capture = none → s.wbu.bridge = .stable → (offset * c.span).natAbs * 100 ≤ c.capacity * 2 * 65536 →
      exec (.zeroBridge p seq []) s = .next (zeroed.answeredAt .zeroBridge p seq .ok zeroed.bridgeReport))

/-- The staleness timer makes the bridge STALE with an empty window; from another state it logs, notifies and ends a
capture. The model's choices in it: log entry 3 (the time an expiry leaves). Basis: 02_weighbridge.md, section
2.3 (R25); 02_weighbridge.md, section 2.5 (R31). -/
def Obligations.TheStalenessTimerMakesTheBridgeStale : Prop :=
  ∀ (s : State) (last : Nat), s.live = true → s.wbu.timer = some last →
    let later : State := { s with ms := max s.ms (last + 500) }
    let stale : Wbu := { s.wbu with bridge := .stale, window := [], timer := none }
    let report := 1 :: State.bridgeReport { later with wbu := stale }
    let told (q : Port) : SlpPort :=
      if q = .scale ∨ q = .office then (s.port q).offer ⟨.bridgeFault, report⟩ else s.port q
    (s.wbu.bridge = .stale → exec .stalenessTimerExpiry s = .next { later with wbu := stale }) ∧
    (s.wbu.bridge ≠ .stale → ∃ t, exec .stalenessTimerExpiry s = .next t ∧
      t.wbu = { stale with capture := none } ∧ t.evr = (later.logEvent .bridgeStale .none 0).evr ∧
      (∀ c n k, s.wbu.capture = some c → (s.port c.port).slot = .acting n k →
        (t.port c.port).slot = .answering ⟨n, k, .bridge, t.bridgeReport⟩ none) ∧
      (∀ q, (∀ c, s.wbu.capture = some c → c.port ≠ q) → (t.port q).slot = (s.port q).slot) ∧
      (∀ q, t.port q = { told q with slot := (t.port q).slot }) ∧
      t = { later with wbu := t.wbu, ports := t.ports, evr := t.evr, rsc := { s.rsc with queue := t.rsc.queue } })

/-- A pending capture ends MOTION at its deadline and BRIDGE at an overload or underload, waits through MOTION, and
completes at a STABLE sample. The model's choices in it: log entry 3 (the time a deadline leaves), log entry 16
(the body of the answer to a tare above the gross) and log entry 11 (a counter that outgrows its 8 bytes).
Basis: 02_weighbridge.md, section 2.5 (R31, R32, R33); 03_tickets_and_lots.md, section 3.2 (R41);
03_tickets_and_lots.md, section 3.3 (R45, R47, R48). -/
def Obligations.PendingCapturesEndOnTheirLines : Prop :=
  ∀ (s : State) (cap : Capture) (n kind : Byte), s.live = true → s.wbu.capture = some cap →
    (s.port cap.port).slot = .acting n kind →
    let answered (s : State) (code : Code) : State :=
      s.modPort cap.port fun q => { q with slot := .answering ⟨n, kind, code, s.bridgeReport⟩ none }
    exec .captureDeadline s
      = .next (answered { s with ms := max s.ms cap.deadline, wbu := { s.wbu with capture := none } } .motion) ∧
    ∀ (word : SampleWord) (c : ScaleConfig) (m : Nat), s.wbu.wsi = .shifting m → s.cfg.scale = some c →
      let w := { s.wbu with wsi := .aligning }.weigh c word.toInt s.ms
      ((w.bridge = .overload ∨ w.bridge = .underload) →
        exec (.sampleArrival word) s = .next (answered { s with wbu := { w with capture := none } } .bridge)) ∧
      (w.bridge = .motion → exec (.sampleArrival word) s = .next { s with wbu := w }) ∧
      (w.bridge = .stable →
        let after : State := { s with wbu := { w with capture := none } }
        let mass := after.bridgeMass
        (mass < 20 * (c.division : Int) → exec (.sampleArrival word) s = .next (answered after .range)) ∧
        (20 * (c.division : Int) ≤ mass →
          (∀ x, cap.kind = .gross → s.ticket cap.ticket = some x →
            let weighed (y : Ticket) : Ticket :=
              { y with gross := some ⟨mass.toNat, s.term⟩, state := .weighedIn, rev := nextRev y.rev }
            ∃ t, exec (.sampleArrival word) s = .next t ∧
              t.tlr = { s.tlr with
                tickets := s.tlr.tickets.map fun y => if y.number = cap.ticket then weighed y else y } ∧
              t.port cap.port = { s.port cap.port with
                slot := .answering ⟨n, kind, .ok, u16 (nextRev x.rev) ++ (weighed x).body⟩ none } ∧
              s.othersTold t cap.port (.ticket cap.ticket) (nextRev x.rev) ∧ t.rsc = (s.enqueue ⟨.ticket, x.pos⟩).rsc ∧
              t = { after with tlr := t.tlr, ports := t.ports, rsc := t.rsc }) ∧
          (∀ x g i, cap.kind = .tare → s.ticket cap.ticket = some x → x.gross = some g → x.pit = some i →
            (s.pit i).state = .receiving cap.ticket →
            let tare := mass.toNat
            let net := g.mass - tare
            let sample := x.sample.getD ⟨0, false, 0⟩
            let answers (t : State) (code : Code) (y : List Byte) : Prop :=
              (t.port cap.port).slot = .answering ⟨n, kind, code, y⟩ none
            (g.mass < tare → ∃ t, exec (.sampleArrival word) s = .next t ∧
              answers t .range (u16 x.rev ++ x.body ++ u32 tare) ∧ (∀ q, q ≠ cap.port → t.port q = s.port q) ∧
              t = { after with ports := t.ports }) ∧
            (tare ≤ g.mass → ∃ t, exec (.sampleArrival word) s = .next t ∧
              t.tlr.tickets = s.tlr.tickets.filter (·.number != cap.ticket) ∧ t.tlr.counter = s.tlr.counter ∧
              (∀ j, j ≠ i → t.pit j = s.pit j) ∧ t.inv.bins = s.inv.bins ∧ t.inv.frozen = s.inv.frozen ∧
              (t.pit i).rev = nextRev (s.pit i).rev ∧ (t.pit i).unverified = (s.pit i).unverified ∧
              (net = 0 → t.tlr.lots = s.tlr.lots ∧ (t.pit i).state = .empty ∧ (t.pit i).layer = (s.pit i).layer ∧
                t.inv.balance = s.inv.balance ∧ answers t .ok (u16 x.rev ++ x.bodyAs 5 (some tare))) ∧
              (net ≠ 0 → ∃ l, t.tlr.lots = s.tlr.lots ++ [l] ∧ l.number = x.number ∧ l.net = net ∧
                l.commodity = x.commodity ∧ l.grade = sample.grade ∧ l.moisture = sample.moisture ∧
                l.estimated = sample.estimated ∧ l.damaged = false ∧ l.intakeTime = s.term ∧ l.refs = 1 ∧ l.rev = 1 ∧
                (⟨l.waterShrink, l.handlingShrink, l.standard⟩ : Shrinks)
                  = standardMass (s.commodity x.commodity) net l.moisture ∧
                (t.pit i).state = .loaded ∧ (t.pit i).commodity = some x.commodity ∧
                (∃ k, (t.pit i).layer
                  = some ⟨k, net, l.moisture, l.grade, .intake, s.term, [x.number], false⟩) ∧
                t.inv.balance = { s.inv.balance with received := fitSigned64 (s.inv.balance.received + net) } ∧
                answers t .ok (u16 x.rev ++ x.bodyAs 5 (some tare) ++ l.body)) ∧
              (∀ q, t.port q = { s.port q with slot := (t.port q).slot }) ∧
              t = { after with tlr := t.tlr, inv := t.inv, ports := t.ports, evr := t.evr,
                               rsc := { s.rsc with queue := t.rsc.queue } }))))

/-- A number issued from a counter is in range, in no use, and every number passed over was in use. Basis:
03_tickets_and_lots.md, section 3.1 (R37); 05_bins_and_layers.md, section 5.3 (R78);
06_routes_claims_and_transfers.md, section 6.3 (R99); 06_routes_claims_and_transfers.md, section 6.4 (R105). -/
def Obligations.IssuedNumbersAreFreshAndInRange : Prop :=
  ∀ (top ctr : Nat) (used : List Nat), used.length < top →
    let n := issueNumber top used ctr
    let start := if ctr ≥ top then 1 else ctr + 1
    1 ≤ n ∧ n ≤ top ∧ n ∉ used ∧
      ∃ k, k ≤ used.length ∧ n = (start - 1 + k) % top + 1 ∧ ∀ j, j < k → (start - 1 + j) % top + 1 ∈ used

/-- OPEN TICKET is RANGE for an unconfigured commodity, FULL at 12 tickets or no spare lot entry, and otherwise
enters one ticket. Basis: R39. -/
def Obligations.OpenTicketEntersATicketOrIsRefused : Prop :=
  ∀ (p : Port) (seq : Byte) (body rest : List Byte) (plate : Text) (commodity : Nat) (s : State),
    s.accepts .openTicket p → takeFields [1] body = some ([commodity], rest) → takeText rest = some (plate, []) →
    let open_ := s.tlr.tickets.length
    let used := s.tlr.tickets.map (·.number) ++ s.tlr.lots.map (·.number)
    (s.isConfigured commodity = false →
      exec (.openTicket p seq body) s = .next (s.answeredAt .openTicket p seq .range [])) ∧
    (s.isConfigured commodity = true → (12 ≤ open_ ∨ 400 - s.tlr.lots.length ≤ open_) →
      exec (.openTicket p seq body) s = .next (s.answeredAt .openTicket p seq .full [])) ∧
    (s.isConfigured commodity = true → open_ < 12 → open_ < 400 - s.tlr.lots.length →
      ∃ t x, exec (.openTicket p seq body) s = .next t ∧
        x = { pos := x.pos, number := issueNumber 65535 used s.tlr.counter, state := .opened, commodity := commodity,
              plate := plate, gross := none, sample := none, pit := none, rev := 1 } ∧
        1 ≤ x.number ∧ x.number ≤ 65535 ∧ x.number ∉ used ∧
        t.tlr = { s.tlr with tickets := s.tlr.tickets ++ [x], counter := x.number } ∧
        t.ports = (s.answeredAt .openTicket p seq .ok (u16 1 ++ x.body)).ports ∧
        (s.rsc.accepting = true → ⟨.counters, 0⟩ ∈ t.rsc.queue ∧ ⟨.ticket, x.pos⟩ ∈ t.rsc.queue) ∧
        t = { s with tlr := t.tlr, ports := t.ports, rsc := { s.rsc with queue := t.rsc.queue } })

/-- CAPTURE GROSS and CAPTURE TARE are BUSY, BRIDGE, wait 5 s or weigh by the first line of R30 that applies; a
gross so weighed is recorded. The model's choices in it: log entry 26 (the bridge report of a tare refused
BUSY). Basis: 03_tickets_and_lots.md, section 3.2 (R41); 03_tickets_and_lots.md, section 3.3 (R45);
02_weighbridge.md, section 2.5 (R30, R33). -/
def Obligations.CaptureGrossWeighsInOrWaits : Prop :=
  (∀ (k : ReqKind) (kind : CaptureKind) (state : TicketState),
    (k, kind, state) ∈ [(ReqKind.captureGross, CaptureKind.gross, TicketState.opened), (.captureTare, .tare, .dumped)] →
    ∀ (p : Port) (seq : Byte) (body : List Byte) (n rev : Nat) (x : Ticket) (s : State), s.accepts k p →
      fields [2, 2] body = some [n, rev] → n ≠ 0 → s.ticket n = some x → x.state = state → (rev = 0 ∨ rev = x.rev) →
      (s.wbu.capture.isSome →
        exec (k.command p seq body) s = .next (s.answeredAt k p seq .busy s.bridgeReport)) ∧
      (s.wbu.capture = none →
        (s.wbu.zeroDrift = true ∨ s.wbu.bridge = .stale ∨ s.wbu.bridge = .overload ∨ s.wbu.bridge = .underload) →
        exec (k.command p seq body) s = .next (s.answeredAt k p seq .bridge s.bridgeReport)) ∧
      (s.wbu.capture = none → s.wbu.zeroDrift = false → s.wbu.bridge = .motion → exec (k.command p seq body) s = .next
        ({ s with wbu := { s.wbu with capture := some ⟨p, kind, n, s.ms + 5000⟩ } }.modPort p fun q =>
          { q with receiver := .hunting, silent := false, timer := some s.ms, slot := .acting seq k.code })) ∧
      (s.wbu.capture = none → s.wbu.zeroDrift = false → s.wbu.bridge = .stable →
        s.bridgeMass < 20 * (s.scale.division : Int) →
        exec (k.command p seq body) s = .next (s.answeredAt k p seq .range s.bridgeReport))) ∧
  ∀ (p : Port) (seq : Byte) (body : List Byte) (n rev : Nat) (x : Ticket) (s : State), s.accepts .captureGross p →
    fields [2, 2] body = some [n, rev] → n ≠ 0 → s.ticket n = some x → x.state = .opened → (rev = 0 ∨ rev = x.rev) →
    s.wbu.capture = none → s.wbu.zeroDrift = false → s.wbu.bridge = .stable →
    20 * (s.scale.division : Int) ≤ s.bridgeMass →
    let weighed (y : Ticket) : Ticket :=
      { y with gross := some ⟨s.bridgeMass.toNat, s.term⟩, state := .weighedIn, rev := nextRev y.rev }
    ∃ t, exec (.captureGross p seq body) s = .next t ∧
      t.tlr = { s.tlr with tickets := s.tlr.tickets.map fun y => if y.number = n then weighed y else y } ∧
      t.port p = (s.port p).answered s.ms 0x11 seq .ok (u16 (nextRev x.rev) ++ (weighed x).body) ∧
      s.othersTold t p (.ticket n) (nextRev x.rev) ∧ t.rsc = (s.enqueue ⟨.ticket, x.pos⟩).rsc ∧
      t = { s with tlr := t.tlr, ports := t.ports, rsc := t.rsc }

/-- ENTER SAMPLE records or replaces the sample of a WEIGHED_IN or SAMPLED ticket, clamping the moisture at 350 with
ESTIMATED. Basis: R42. -/
def Obligations.EnterSampleRecordsUpTo350 : Prop :=
  ∀ (p : Port) (seq : Byte) (body : List Byte) (n rev moisture grade : Nat) (x : Ticket) (s : State),
    s.accepts .enterSample p → fields [2, 2, 2, 1] body = some [n, rev, moisture, grade] → n ≠ 0 →
    s.ticket n = some x → (rev = 0 ∨ rev = x.rev) →
    let sampled (y : Ticket) : Ticket :=
      { y with sample := some ⟨min moisture 350, decide (350 < moisture), grade⟩, state := .sampled, rev := nextRev y.rev }
    (x.state ≠ .weighedIn → x.state ≠ .sampled →
      exec (.enterSample p seq body) s = .next (s.answeredAt .enterSample p seq .badState [])) ∧
    ((x.state = .weighedIn ∨ x.state = .sampled) → ¬(1 ≤ grade ∧ grade ≤ 5) →
      exec (.enterSample p seq body) s = .next (s.answeredAt .enterSample p seq .range [])) ∧
    ((x.state = .weighedIn ∨ x.state = .sampled) → 1 ≤ grade → grade ≤ 5 →
      ∃ t, exec (.enterSample p seq body) s = .next t ∧
        t.tlr = { s.tlr with tickets := s.tlr.tickets.map fun y => if y.number = n then sampled y else y } ∧
        t.port p = (s.port p).answered s.ms 0x12 seq .ok (u16 (nextRev x.rev) ++ (sampled x).body) ∧
        s.othersTold t p (.ticket n) (nextRev x.rev) ∧ t.rsc = (s.enqueue ⟨.ticket, x.pos⟩).rsc ∧
        t = { s with tlr := t.tlr, ports := t.ports, rsc := t.rsc })

/-- ASSIGN PIT takes an EMPTY verified pit, REPORT DUMPED makes an ASSIGNED ticket DUMPED, VOID TICKET removes one
before DUMPED. The model's choices in it: log entry 16 (the empty body of the NOT_FOUND that answers the capture
ended by a VOID TICKET). Basis: 03_tickets_and_lots.md, section 3.2 (R43, R44); 03_tickets_and_lots.md, section
3.3 (R46); 02_weighbridge.md, section 2.5 (R31). -/
def Obligations.TicketsTakeAPitReportDumpedOrAreVoided : Prop :=
  (∀ (p : Port) (seq : Byte) (body : List Byte) (n rev : Nat) (i : PitIx) (x : Ticket) (s : State),
    s.accepts .assignPit p → fields [2, 2, 1] body = some [n, rev, i.val + 1] → n ≠ 0 → s.ticket n = some x →
    x.state = .sampled → (rev = 0 ∨ rev = x.rev) →
    let assigned (y : Ticket) : Ticket := { y with pit := some i, state := .assigned, rev := nextRev y.rev }
    ((s.pit i).unverified = true →
      exec (.assignPit p seq body) s = .next (s.answeredAt .assignPit p seq .badState [])) ∧
    ((s.pit i).unverified = false → (s.pit i).state ≠ .empty →
      exec (.assignPit p seq body) s = .next (s.answeredAt .assignPit p seq .busy [])) ∧
    ((s.pit i).unverified = false → (s.pit i).state = .empty → ∃ t, exec (.assignPit p seq body) s = .next t ∧
      t.tlr = { s.tlr with tickets := s.tlr.tickets.map fun y => if y.number = n then assigned y else y } ∧
      t.pit i = { s.pit i with state := .receiving n, rev := nextRev (s.pit i).rev } ∧
      (∀ j, j ≠ i → t.pit j = s.pit j) ∧ t.inv = { s.inv with pits := t.inv.pits } ∧
      t.answers .assignPit p seq .ok (u16 (nextRev x.rev) ++ (assigned x).body) ∧
      (s.rsc.accepting = true → ⟨.pit, i⟩ ∈ t.rsc.queue ∧ ⟨.ticket, x.pos⟩ ∈ t.rsc.queue) ∧ s.linesKept t p ∧
      t = { s with tlr := t.tlr, inv := t.inv, ports := t.ports, rsc := { s.rsc with queue := t.rsc.queue } })) ∧
  (∀ (p : Port) (seq : Byte) (body : List Byte) (n rev : Nat) (x : Ticket) (s : State),
    s.accepts .reportDumped p → fields [2, 2] body = some [n, rev] → n ≠ 0 → s.ticket n = some x →
    x.state = .assigned → (rev = 0 ∨ rev = x.rev) →
    let dumped (y : Ticket) : Ticket := { y with state := .dumped, rev := nextRev y.rev }
    ∃ t, exec (.reportDumped p seq body) s = .next t ∧
      t.tlr = { s.tlr with tickets := s.tlr.tickets.map fun y => if y.number = n then dumped y else y } ∧
      t.port p = (s.port p).answered s.ms 0x14 seq .ok (u16 (nextRev x.rev) ++ (dumped x).body) ∧
      s.othersTold t p (.ticket n) (nextRev x.rev) ∧ t.rsc = (s.enqueue ⟨.ticket, x.pos⟩).rsc ∧
      t = { s with tlr := t.tlr, ports := t.ports, rsc := t.rsc }) ∧
  ∀ (p : Port) (seq : Byte) (body : List Byte) (n rev : Nat) (x : Ticket) (s : State),
    s.accepts .voidTicket p → fields [2, 2] body = some [n, rev] → n ≠ 0 → s.ticket n = some x →
    (rev = 0 ∨ rev = x.rev) → (∀ c, s.wbu.capture = some c → c.port ≠ p) →
    (x.state = .dumped → exec (.voidTicket p seq body) s = .next (s.answeredAt .voidTicket p seq .badState [])) ∧
    (x.state ≠ .dumped → ∃ t, exec (.voidTicket p seq body) s = .next t ∧
      t.tlr = { s.tlr with tickets := s.tlr.tickets.filter (·.number != n) } ∧
      (∀ i, x.state = .assigned → x.pit = some i →
        t.pit i = { s.pit i with state := .empty, rev := nextRev (s.pit i).rev }) ∧
      (∀ i, (x.state ≠ .assigned ∨ x.pit ≠ some i) → t.pit i = s.pit i) ∧
      t.inv = { s.inv with pits := t.inv.pits } ∧
      t.wbu = { s.wbu with capture := s.wbu.capture.filter fun c => c.ticket != n } ∧
      (∀ c m k, s.wbu.capture = some c → c.ticket = n → (s.port c.port).slot = .acting m k →
        (t.port c.port).slot = .answering ⟨m, k, .notFound, []⟩ none) ∧
      t.answers .voidTicket p seq .ok (u16 x.rev ++ x.body) ∧ s.linesKept t p ∧
      t = { s with tlr := t.tlr, inv := t.inv, wbu := t.wbu, ports := t.ports, rsc := { s.rsc with queue := t.rsc.queue } })

/-- CAPTURE TARE at a STABLE bridge turns a DUMPED ticket into a lot and loads its pit, or is refused when above the
gross. The model's choices in it: log entry 16 (the body of the answer to a tare above the gross) and log entry
11 (a counter that outgrows its 8 bytes). Basis: 03_tickets_and_lots.md, section 3.3 (R45, R47, R48);
02_weighbridge.md, section 2.5 (R33). -/
def Obligations.TheTareClosesTheTicketIntoALot : Prop :=
  ∀ (p : Port) (seq : Byte) (body : List Byte) (n rev : Nat) (x : Ticket) (g : Gross) (i : PitIx) (s : State),
    s.accepts .captureTare p → fields [2, 2] body = some [n, rev] → n ≠ 0 → s.ticket n = some x →
    x.state = .dumped → (rev = 0 ∨ rev = x.rev) → x.gross = some g → x.pit = some i →
    (s.pit i).state = .receiving n → s.wbu.capture = none → s.wbu.zeroDrift = false → s.wbu.bridge = .stable →
    20 * (s.scale.division : Int) ≤ s.bridgeMass →
    let tare := s.bridgeMass.toNat
    let net := g.mass - tare
    let sample := x.sample.getD ⟨0, false, 0⟩
    (g.mass < tare → exec (.captureTare p seq body) s
      = .next (s.answeredAt .captureTare p seq .range (u16 x.rev ++ x.body ++ u32 tare))) ∧
    (tare ≤ g.mass → ∃ t, exec (.captureTare p seq body) s = .next t ∧
      t.tlr.tickets = s.tlr.tickets.filter (·.number != n) ∧ t.tlr.counter = s.tlr.counter ∧
      (∀ j, j ≠ i → t.pit j = s.pit j) ∧ t.inv.bins = s.inv.bins ∧ t.inv.frozen = s.inv.frozen ∧
      (t.pit i).rev = nextRev (s.pit i).rev ∧ (t.pit i).unverified = (s.pit i).unverified ∧
      (net = 0 → t.tlr.lots = s.tlr.lots ∧ (t.pit i).state = .empty ∧ (t.pit i).layer = (s.pit i).layer ∧
        t.inv.balance = s.inv.balance ∧ t.answers .captureTare p seq .ok (u16 x.rev ++ x.bodyAs 5 (some tare))) ∧
      (net ≠ 0 → ∃ l, t.tlr.lots = s.tlr.lots ++ [l] ∧ l.number = x.number ∧ l.net = net ∧ l.commodity = x.commodity ∧
        l.grade = sample.grade ∧ l.moisture = sample.moisture ∧ l.estimated = sample.estimated ∧
        l.damaged = false ∧ l.intakeTime = s.term ∧ l.refs = 1 ∧ l.rev = 1 ∧
        (⟨l.waterShrink, l.handlingShrink, l.standard⟩ : Shrinks) = standardMass (s.commodity x.commodity) net l.moisture ∧
        (l.wet = true ↔ (s.commodity x.commodity).configured = false ∨ (s.commodity x.commodity).safeMoisture < l.moisture) ∧
        (t.pit i).state = .loaded ∧ (t.pit i).commodity = some x.commodity ∧
        (∃ k, (t.pit i).layer = some ⟨k, net, l.moisture, l.grade, .intake, s.term, [x.number], false⟩) ∧
        (t.pit i).overfill = decide ((s.pit i).capacity < net) ∧
        t.inv.balance = { s.inv.balance with received := fitSigned64 (s.inv.balance.received + net) } ∧
        t.answers .captureTare p seq .ok (u16 x.rev ++ x.bodyAs 5 (some tare) ++ l.body)) ∧
      s.linesKept t p ∧
      t = { s with tlr := t.tlr, inv := t.inv, ports := t.ports, evr := t.evr, rsc := { s.rsc with queue := t.rsc.queue } })

/-- Standard mass, water shrink and handling shrink follow the three cases and together make up the net. Basis:
04_mass_moisture_and_draft_arithmetic.md, section 4.3 (R58). -/
def Obligations.StandardMassAndShrinksAccountForTheNet : Prop :=
  ∀ (c : Commodity) (net moisture : Nat), c.base ≤ 300 → c.handling ≤ 100 → moisture ≤ 350 → 5 ≤ net →
    let x := standardMass c net moisture
    x.water + x.handling + x.standard = net ∧
    ((c.configured = false ∨ moisture ≤ c.base) → x = ⟨0, 0, net⟩) ∧
    (c.configured = true → c.base < moisture →
      let w := x.standard + x.handling
      w * (1000 - c.base) ≤ net * (1000 - moisture) ∧ net * (1000 - moisture) < (w + 1) * (1000 - c.base) ∧
      w < net ∧ x.water = net - w ∧ 1 ≤ x.water ∧
      net * c.handling ≤ 10000 * x.handling ∧ 10000 * x.handling < net * c.handling + 10000 ∧
      (0 < c.handling → 1 ≤ x.handling))

/-- A rescale cuts no target below its loaded mass, raises none, keeps finished ones, and fits the ceiling when the
loaded masses do. Basis: 04_mass_moisture_and_draft_arithmetic.md, section 4.8 (R65, R66). -/
def Obligations.ARescaleNeverRaisesATargetAndFitsTheCeiling : Prop :=
  ∀ (ceiling : Nat) (plan : List (Nat × Nat)),
    let new := rescale ceiling plan
    let loaded := (plan.map (·.2)).sum
    new.length = plan.length ∧
    (∀ (k : Nat) (h : Nat × Nat) (x : Nat), plan[k]? = some h → new[k]? = some x →
      x ≤ h.1 ∧ (h.2 < h.1 → h.2 ≤ x) ∧ (h.1 ≤ h.2 → x = h.1)) ∧
    (((plan.filter fun h => h.2 < h.1).map fun h => h.1 - h.2).sum ≤ ceiling - loaded → new = plan.map (·.1)) ∧
    (loaded ≤ ceiling → new.sum ≤ ceiling)

/-- A release takes the lesser of the mass asked and the mass held, whole layers or DRIED batches from the bottom or
the oldest and at most a part of the next. Basis: 05_bins_and_layers.md, section 5.3 (R81); 07_drying.md,
section 7.5 (R132). -/
def Obligations.ReleasesDrawFromTheBottomAndKeepTheMass : Prop :=
  (∀ (c : Option Nat) (m : Nat) (ls : List Layer),
    let d := drawLayers c m ls
    let held := (ls.map (·.mass)).sum
    let part (l : Layer) (x : Nat) : Part := ⟨x, l.moisture, l.grade, l.lots, l.untraced, c.getD 0⟩
    totalMass d.parts = min m held ∧ (d.rest.map (·.mass)).sum = held - min m held ∧
    ∃ (left : List Layer) (tail : List Part), ls = d.exhausted ++ left ∧
      d.parts = (d.exhausted.map fun l => part l l.mass) ++ tail ∧
      ((tail = [] ∧ d.rest = left) ∨
        ∃ l more x, left = l :: more ∧ 0 < x ∧ x < l.mass ∧ tail = [part l x] ∧
          d.rest = { l with mass := l.mass - x } :: more)) ∧
  ∀ (c : Option Nat) (m : Nat) (bs : List Batch),
    let d := drawBatches c m bs
    let dried (xs : List Batch) : List Batch := xs.filter fun b => b.state == .dried
    let held (xs : List Batch) : Nat := ((dried xs).map (·.remaining)).sum
    let part (b : Batch) (x : Nat) : Part := ⟨x, b.outMoisture, b.grade, b.lots, b.untraced, c.getD 0⟩
    totalMass d.parts = min m (held bs) ∧ held d.rest = held bs - min m (held bs) ∧
    (d.rest.filter (fun b => b.state != .dried) = bs.filter fun b => b.state != .dried) ∧
    (d.rest.map (·.number)).Sublist (bs.map (·.number)) ∧
    ∃ (left : List Batch) (tail : List Part), dried bs = d.exhausted ++ left ∧
      d.parts = (d.exhausted.map fun b => part b b.remaining) ++ tail ∧
      ((tail = [] ∧ dried d.rest = left) ∨
        ∃ b more x, left = b :: more ∧ 0 < x ∧ x < b.remaining ∧ tail = [part b x] ∧
          dried d.rest = { b with remaining := b.remaining - x } :: more)

/-- PLACE HOLD places or raises a hold, never lowers STRICT and trips what it forbids; RELEASE HOLD lifts STANDARD
for its placing station or Office. The model's choices in it: log entry 16 (the header of an OK body shows first
position 0). Basis: 05_bins_and_layers.md, section 5.6 (R87, R88, R89); 06_routes_claims_and_transfers.md,
section 6.7 (R112); 11_plant_events_and_terminal_summary.md, section 11.1 (R178). -/
def Obligations.HoldsTripWhatTheyForbidAndLiftByTheirRules : Prop :=
  (∀ (p : Port) (seq : Byte) (body : List Byte) (i : BinIx) (rev : Nat) (level : HoldLevel) (s : State),
    s.accepts .placeHold p → fields [1, 2, 1] body = some [i.val + 1, rev, level.code] →
    (rev = 0 ∨ rev = (s.bin i).rev) →
    (∀ q, (s.bin i).hold = some ⟨.strict, q⟩ → level = .standard →
      exec (.placeHold p seq body) s = .next (s.answeredAt .placeHold p seq .held [])) ∧
    (∀ q, (s.bin i).hold = some ⟨level, q⟩ →
      exec (.placeHold p seq body) s = .next (s.answeredAt .placeHold p seq .ok (u16 (s.bin i).rev ++ (s.bin i).header i 0 0))) ∧
    (((s.bin i).hold = none ∨ (level = .strict ∧ ∃ q, (s.bin i).hold = some ⟨.standard, q⟩)) →
      ∃ t, exec (.placeHold p seq body) s = .next t ∧
        t.bin i = { s.bin i with hold := some ⟨level, p⟩, rev := nextRev (s.bin i).rev } ∧
        (∀ j, j ≠ i → t.bin j = { s.bin j with rev := (t.bin j).rev }) ∧
        (∀ j, t.pit j = { s.pit j with rev := (t.pit j).rev }) ∧
        t.answers .placeHold p seq .ok (u16 (t.bin i).rev ++ (t.bin i).header i 0 0) ∧
        ((s.rc.claims.map (·.number)).Nodup → ∀ c ∈ t.rc.claims, ∀ x, c.state = .running x →
          x.dest ≠ .bin i ∧ (x.source = .bin i → x.dest = .reject)) ∧
        ((s.rc.claims.map (·.number)).Nodup →
          let running := s.rc.claims.filterMap Claim.runningTransfer
          let into := running.filter fun x => x.dest == .bin i
          let out := running.filter fun x => x.source == .bin i && x.dest != .bin i && x.dest != .reject
          t.evr = (((into ++ out).foldl (fun s x => s.logEvent .trip (.location x.source.number) 3) s).logEvent
            .holdPlaced (.location (i.val + 1)) level.code).evr) ∧
        s.linesKept t p ∧
        t = { s with inv := { s.inv with bins := t.inv.bins, pits := t.inv.pits }, rc := t.rc,
                     dru := { s.dru with rev := t.dru.rev }, btu := { s.btu with rev := t.btu.rev },
                     ports := t.ports, evr := t.evr, rsc := { s.rsc with queue := t.rsc.queue } })) ∧
  ∀ (p : Port) (seq : Byte) (body : List Byte) (n rev : Nat) (s : State),
    s.accepts .releaseHold p → fields [1, 2] body = some [n, rev] →
    (¬(1 ≤ n ∧ n ≤ 28) → exec (.releaseHold p seq body) s = .next (s.answeredAt .releaseHold p seq .range [])) ∧
    ∀ i : BinIx, n = i.val + 1 →
      (¬(rev = 0 ∨ rev = (s.bin i).rev) →
        exec (.releaseHold p seq body) s = .next (s.answeredAt .releaseHold p seq .stale (u16 (s.bin i).rev))) ∧
      ((rev = 0 ∨ rev = (s.bin i).rev) →
        ((s.bin i).hold = none →
          exec (.releaseHold p seq body) s = .next (s.answeredAt .releaseHold p seq .badState [])) ∧
        (∀ q, (s.bin i).hold = some ⟨.strict, q⟩ →
          exec (.releaseHold p seq body) s = .next (s.answeredAt .releaseHold p seq .held [])) ∧
        (∀ q, (s.bin i).hold = some ⟨.standard, q⟩ → p ≠ q → p ≠ .office →
          exec (.releaseHold p seq body) s = .next (s.answeredAt .releaseHold p seq .role [])) ∧
        (∀ q, (s.bin i).hold = some ⟨.standard, q⟩ → (p = q ∨ p = .office) →
          let new : BinRec := { s.bin i with hold := none, rev := nextRev (s.bin i).rev }
          let notice : Notice := ⟨.hold, [BitVec.ofNat 8 n, 0, 0, 1]⟩
          ∃ t, exec (.releaseHold p seq body) s = .next t ∧ t.bin i = new ∧ (∀ j, j ≠ i → t.bin j = s.bin j) ∧
            t.port p = ((s.port p).offer notice).answered s.ms 0x21 seq .ok (u16 new.rev ++ new.header i 0 0) ∧
            (∀ r, r ≠ p → t.port r = ((s.port r).offer notice).endWatch (.bin i) .changed (u16 new.rev)) ∧
            t.evr = (s.logEvent .holdLifted (.location n) 0).evr ∧
            (s.rsc.accepting = true → ⟨.bin, i⟩ ∈ t.rsc.queue) ∧
            t = { s with inv := { s.inv with bins := t.inv.bins }, ports := t.ports, evr := t.evr,
                         rsc := { s.rsc with queue := t.rsc.queue } }))

/-- SET CEILING is RANGE, STALE, FROZEN, LOCKED or BELOW_CONTENT in that order and otherwise sets the clamped
ceiling; locks and the freeze act as asked. The model's choices in it: log entry 16 (the header of an OK body
shows first position 0). Basis: 05_bins_and_layers.md, section 5.5 (R84, R85, R86). -/
def Obligations.CeilingsAreSetLockedAndFrozen : Prop :=
  (∀ (p : Port) (seq : Byte) (body : List Byte) (i : BinIx) (rev asked mode : Nat) (s : State),
    s.accepts .setCeiling p → fields [1, 2, 4, 1] body = some [i.val + 1, rev, asked, mode] →
    let b := s.bin i
    let ceiling := min asked b.capacity
    let refused (code : Code) : Prop := exec (.setCeiling p seq body) s = .next (s.answeredAt .setCeiling p seq code [])
    (1 < mode → refused .range) ∧
    (mode ≤ 1 → ¬(rev = 0 ∨ rev = b.rev) →
      exec (.setCeiling p seq body) s = .next (s.answeredAt .setCeiling p seq .stale (u16 b.rev))) ∧
    (mode ≤ 1 → (rev = 0 ∨ rev = b.rev) →
      (s.inv.frozen = true → refused .frozen) ∧
      (s.inv.frozen = false → b.locked = true → refused .locked) ∧
      (s.inv.frozen = false → b.locked = false → ceiling < b.mass → refused .belowContent) ∧
      (s.inv.frozen = false → b.locked = false → b.mass ≤ ceiling →
        (ceiling = b.ceiling → b.retained = (mode == 1) →
          exec (.setCeiling p seq body) s = .next (s.answeredAt .setCeiling p seq .ok (u16 b.rev ++ b.header i 0 0))) ∧
        (¬(ceiling = b.ceiling ∧ b.retained = (mode == 1)) → ∃ t, exec (.setCeiling p seq body) s = .next t ∧
          t.bin i = { b with ceiling := ceiling, retained := mode == 1, overfill := false, rev := nextRev b.rev } ∧
          t.answers .setCeiling p seq .ok (u16 (nextRev b.rev) ++ (t.bin i).header i 0 0) ∧
          (b.inbound = none → (∀ j, j ≠ i → t.bin j = s.bin j) ∧ s.othersTold t p (.bin i) (nextRev b.rev) ∧
            t.rsc = (s.enqueue ⟨.bin, i⟩).rsc ∧
            t = { s with inv := { s.inv with bins := t.inv.bins }, ports := t.ports, rsc := t.rsc }))))) ∧
  (∀ (lock : Bool) (p : Port) (seq : Byte) (body : List Byte) (i : BinIx) (rev : Nat) (s : State),
    let k : ReqKind := if lock then .lockCeiling else .unlockCeiling
    let b := s.bin i
    s.accepts k p → fields [1, 2] body = some [i.val + 1, rev] →
    (¬(rev = 0 ∨ rev = b.rev) → exec (k.command p seq body) s = .next (s.answeredAt k p seq .stale (u16 b.rev))) ∧
    ((rev = 0 ∨ rev = b.rev) →
      (s.inv.frozen = true → exec (k.command p seq body) s = .next (s.answeredAt k p seq .frozen [])) ∧
      (s.inv.frozen = false → b.locked = lock →
        exec (k.command p seq body) s = .next (s.answeredAt k p seq .ok (u16 b.rev ++ b.header i 0 0))) ∧
      (s.inv.frozen = false → b.locked = !lock → ∃ t, exec (k.command p seq body) s = .next t ∧
        t.bin i = { b with locked := lock, rev := nextRev b.rev } ∧ (∀ j, j ≠ i → t.bin j = s.bin j) ∧
        t.port p = (s.port p).answered s.ms k.code seq .ok (u16 (nextRev b.rev) ++ (t.bin i).header i 0 0) ∧
        s.othersTold t p (.bin i) (nextRev b.rev) ∧ t.rsc = (s.enqueue ⟨.bin, i⟩).rsc ∧
        t = { s with inv := { s.inv with bins := t.inv.bins }, ports := t.ports, rsc := t.rsc }))) ∧
  (∀ (p : Port) (seq : Byte) (s : State), s.accepts .freezeCeilings p →
    exec (.freezeCeilings p seq []) s
      = .next ({ s with inv := { s.inv with frozen := true } }.answeredAt .freezeCeilings p seq .ok [])) ∧
  ∀ (m : Store) (cs : List Instr), (State.startUp m cs).inv.frozen = false

/-- ADJUST MASS leaves the location holding the surveyed mass, not UNVERIFIED, and adds the difference to
Adjustments. The model's choices in it: log entry 16 (the header of an OK body shows first position 0) and log
entry 11 (a counter that outgrows its 8 bytes). Basis: 05_bins_and_layers.md, section 5.7 (R91);
05_bins_and_layers.md, section 5.8 (R92). -/
def Obligations.AdjustMassSetsTheMassAndBooksTheDifference : Prop :=
  ∀ (p : Port) (seq : Byte) (body : List Byte) (a : Adjustment) (s : State),
    s.accepts .adjustMass p → parseAdjust body = some a →
    let booked (before : Nat) : Balance :=
      { s.inv.balance with adjustments := fitSigned64 (s.inv.balance.adjustments + ((a.mass : Int) - before)) }
    let kept (t : State) : Prop :=
      t.wbu = s.wbu ∧ t.tlr.tickets = s.tlr.tickets ∧ t.rc.claims.map (·.number) = s.rc.claims.map (·.number) ∧
      t.clock = s.clock ∧ t.ms = s.ms ∧ t.cfg = s.cfg ∧ t.phase = s.phase ∧ t.rsc.store = s.rsc.store
    (∀ i : BinIx, a.kind = 1 → a.index = i.val + 1 → a.mass ≤ 2 * (s.bin i).capacity →
      (a.rev = 0 ∨ a.rev = (s.bin i).rev) → (s.bin i).inbound = none → (s.bin i).outbound = none →
      s.adjustable a (s.bin i).layers (s.bin i).unverified = true →
      ∃ t, exec (.adjustMass p seq body) s = .next t ∧ (t.bin i).mass = a.mass ∧ (t.bin i).unverified = false ∧
        (t.bin i).rev = nextRev (s.bin i).rev ∧
        (∀ x, a.sample = some x → (t.bin i).layers.map (fun l => (l.mass, l.moisture, l.grade, l.origin, l.lots))
          = if a.mass = 0 then [] else [(a.mass, x.moisture, x.grade, .survey, [])]) ∧
        t.inv.balance = booked (if (s.bin i).unverified then 0 else (s.bin i).mass) ∧
        t.answers .adjustMass p seq .ok (u16 (t.bin i).rev ++ (t.bin i).header i 0 0) ∧
        (∀ j, j ≠ i → (t.bin j).layers = (s.bin j).layers) ∧ (∀ j, (t.pit j).layer = (s.pit j).layer) ∧ kept t) ∧
    (∀ i : PitIx, a.kind = 2 → a.index = i.val + 1 → a.mass ≤ 2 * (s.pit i).capacity →
      (a.rev = 0 ∨ a.rev = (s.pit i).rev) → (s.pit i).outbound = none → (s.pit i).state.isReceiving = false →
      s.adjustable a (s.pit i).layers (s.pit i).unverified = true →
      ∃ t, exec (.adjustMass p seq body) s = .next t ∧ (t.pit i).mass = a.mass ∧ (t.pit i).unverified = false ∧
        (t.pit i).rev = nextRev (s.pit i).rev ∧ ((t.pit i).state = .loaded ↔ (t.pit i).layer ≠ none) ∧
        ((∀ l, (s.pit i).layer = some l → 0 < l.mass) →
          (t.pit i).state = if a.mass = 0 then .empty else .loaded) ∧
        (∀ x, a.sample = some x → (t.pit i).layer.map (fun l => (l.mass, l.moisture, l.grade, l.origin, l.lots))
          = if a.mass = 0 then none else some (a.mass, x.moisture, x.grade, .survey, [])) ∧
        t.inv.balance = booked (if (s.pit i).unverified then 0 else (s.pit i).mass) ∧
        t.answers .adjustMass p seq .ok (u16 (t.pit i).rev ++ (t.pit i).header i 0 0) ∧
        (∀ j, j ≠ i → (t.pit j).layer = (s.pit j).layer) ∧ t.inv.bins = s.inv.bins ∧ kept t)

/-- ACCEPT BALANCE reports in mode 0, is BAD_STATE while a location is UNVERIFIED, and otherwise sets Adjustments so
that the law of the balance holds. The model's choices in it: log entry 11 (a figure that outgrows its 8 bytes).
Basis: 05_bins_and_layers.md, section 5.8 (R92, R93). -/
def Obligations.AcceptBalanceMakesTheLawHold : Prop :=
  ∀ (p : Port) (seq : Byte) (body : List Byte) (mode : Nat) (s : State),
    s.accepts .acceptBalance p → fields [1] body = some [mode] →
    let b := s.inv.balance
    let figure : Int := s.locatedMass + b.shipped + b.rejected + b.dryingLoss - b.received
    let unverified := (∃ i, (s.bin i).unverified = true) ∨ ∃ i, (s.pit i).unverified = true
    (mode = 0 → exec (.acceptBalance p seq body) s = .next (s.answeredAt .acceptBalance p seq .ok s.balanceReport)) ∧
    (1 < mode → exec (.acceptBalance p seq body) s = .next (s.answeredAt .acceptBalance p seq .range [])) ∧
    (mode = 1 → unverified →
      exec (.acceptBalance p seq body) s = .next (s.answeredAt .acceptBalance p seq .badState s.balanceReport)) ∧
    (mode = 1 → ¬unverified →
      ∃ t, exec (.acceptBalance p seq body) s = .next t ∧
        t.inv = { s.inv with balance := { b with adjustments := fitSigned64 figure, isOpen := false } } ∧
        t.ports = (s.answeredAt .acceptBalance p seq .ok t.balanceReport).ports ∧
        t.rsc = (s.enqueue ⟨.balance, 0⟩).rsc ∧ t = { s with inv := t.inv, ports := t.ports, rsc := t.rsc } ∧
        (-(2 ^ 63) ≤ figure → figure < 2 ^ 63 → t.imbalance = 0 ∧ (s.imbalance = 0 → t.inv.balance.adjustments = b.adjustments)))

/-- No step lets a held bin become the destination, or but toward REJECT the source, of a RUNNING transfer. Basis:
05_bins_and_layers.md, section 5.6 (R87, R88); 06_routes_claims_and_transfers.md, section 6.4 (R103). -/
def Obligations.EveryStepKeepsTheHoldLaw : Prop :=
  ∀ s t : State, s.permitLaw → s.holdLaw → step s = .next t → t.holdLaw

/-- CLAIM ROUTE is RANGE, ROLE, FULL, FAULTED or CONFLICT in that order, and otherwise takes every segment of the
route in one event. The model's choices in it: log entry 16 (the claim body of the OK answer, without a separate
revision and with 0xFFFFFFFF as its allowance). Basis: 06_routes_claims_and_transfers.md, section 6.3 (R100). -/
def Obligations.ClaimRouteTakesEverySegmentOrNone : Prop :=
  ∀ (p : Port) (seq : Byte) (body : List Byte) (n : Nat) (s : State),
    s.accepts .claimRoute p → fields [1] body = some [n] →
    let refused (code : Code) (x : List Byte) : Prop :=
      exec (.claimRoute p seq body) s = .next (s.answeredAt .claimRoute p seq code x)
    ((¬(1 ≤ n ∧ n ≤ 40) ∨ s.route n = none) → refused .range []) ∧
    ∀ r, 1 ≤ n → n ≤ 40 → s.route n = some r → r.segments.Nodup →
      (p ∉ r.stations → refused .role []) ∧
      (p ∈ r.stations → 8 ≤ s.rc.claims.length → refused .full []) ∧
      (p ∈ r.stations → s.rc.claims.length < 8 → (∃ i ∈ r.segments, (s.seg i).state = .faulted) → refused .faulted []) ∧
      (p ∈ r.stations → s.rc.claims.length < 8 → (∀ i ∈ r.segments, (s.seg i).state ≠ .faulted) →
        ∀ (xs ys : List SegIx) (i : SegIx) (m : Nat) (c : Claim), r.segments = xs ++ i :: ys →
          (∀ j ∈ xs, (s.seg j).state = .free) → (s.seg i).state = .held m → s.claim m = some c →
          refused .conflict [BitVec.ofNat 8 (i.val + 1), BitVec.ofNat 8 m, BitVec.ofNat 8 (portNo c.holder)]) ∧
      (p ∈ r.stations → s.rc.claims.length < 8 → (∀ i ∈ r.segments, (s.seg i).state = .free) →
        ∃ t c, exec (.claimRoute p seq body) s = .next t ∧
          c = { number := c.number, holder := p, route := r.number, state := .claimed, rev := 1 } ∧
          1 ≤ c.number ∧ c.number ≤ 255 ∧ c.number ∉ s.rc.claims.map (·.number) ∧
          t.rc = { s.rc with claims := s.rc.claims ++ [c], claimCtr := c.number, segments := t.rc.segments } ∧
          (∀ i ∈ r.segments, t.seg i = { s.seg i with state := .held c.number, rev := nextRev (s.seg i).rev }) ∧
          (∀ i, i ∉ r.segments → t.seg i = s.seg i) ∧
          t.port p = (s.port p).answered s.ms 0x30 seq .ok (t.claimBody c) ∧ s.linesKept t p ∧
          t = { s with rc := t.rc, ports := t.ports })

/-- START TRANSFER takes the first refusal of R102 and R103 that applies, and otherwise makes the claim RUNNING and
asserts the permits of its segments. The model's choices in it: log entry 16 (the claim body of the OK answer,
without a separate revision). Basis: 06_routes_claims_and_transfers.md, section 6.4 (R102, R103, R104, R105);
06_routes_claims_and_transfers.md, section 6.9 (R120). -/
def Obligations.StartTransferRunsTheClaim : Prop :=
  ∀ (p : Port) (seq : Byte) (body : List Byte) (n rev requested hold : Nat) (c : Claim) (r : Route) (s : State),
    s.accepts .startTransfer p → fields [1, 2, 4, 1] body = some [n, rev, requested, hold] → n ≠ 0 →
    s.claim n = some c → (rev = 0 ∨ rev = c.rev) → s.route c.route = some r →
    let self := r.source = r.dest
    let storage : Bool := match r.dest with | .bin i => (s.bin i).kind == .storage | _ => false
    let units : List SourceUnit := match r.source with
      | .bin i => (s.bin i).layers.map fun l => ⟨l.mass, l.moisture, l.grade, false⟩
      | .pit i => if (s.pit i).state = .loaded then (s.pit i).layers.map fun l => ⟨l.mass, l.moisture, l.grade, false⟩ else []
      | .dryer => (s.dru.batches.filter (·.state == .dried)).map fun b => ⟨b.remaining, b.outMoisture, b.grade, b.underdried⟩
      | _ => []
    let storable (u : SourceUnit) : Bool := match s.commodityOf r.source with
      | some k => s.isConfigured k && decide (u.moisture ≤ (s.commodity k).safeMoisture) && !u.underdried
      | none => false
    let admissible (u : SourceUnit) : Bool :=
      if storage then storable u else if r.dest = .berth then decide (u.grade ≤ s.btu.worstGrade) else true
    let heldBin (l : Loc) : Prop := ∃ i, l = .bin i ∧ (s.bin i).hold ≠ none
    let doubtful (l : Loc) : Prop :=
      (∃ i, l = .bin i ∧ (s.bin i).unverified = true) ∨ ∃ i, l = .pit i ∧ (s.pit i).unverified = true
    let cargo := (s.btu.holds.map (·.loaded)).sum
    let allowances : List Int :=
      (if requested = 0 then [] else [(requested : Int)]) ++
      (match r.dest with
        | .bin i => if self then [] else [((s.bin i).ceiling : Int) - (s.bin i).mass]
        | _ => []) ++
      (if r.dest = .berth then
        [match s.btu.holds[hold - 1]? with | some h => (h.target : Int) - h.loaded | none => 0,
         (s.btu.ceiling : Int) - cargo,
         (moistureHeadroom s.btu.maxMoisture cargo (s.btu.holds.map (·.sum)).sum
           (units.map fun u => (u.mass, u.moisture)) : Nat)] ++
        (trimHeadroom s.berthCfg.trimBand (s.btu.holds.map (·.loaded)) hold).toList
       else []) ++
      (if storage = true ∨ r.dest = .berth then [(((units.takeWhile admissible).map (·.mass)).sum : Int)] else []) ++
      (if self then [(s.massOf r.source : Int)] else [])
    let lines : List (Prop × Code) :=
      [(c.holder ≠ p, .foreign),
       (c.state ≠ .claimed, .badState),
       (r.dest = .berth ∧ s.btu.state ≠ .planned, .badState),
       ((r.dest = .berth ∧ (hold = 0 ∨ s.btu.holds.length < hold)) ∨ (r.dest ≠ .berth ∧ hold ≠ 0), .range),
       (doubtful r.source ∨ doubtful r.dest, .badState),
       (units = [], .noRoom),
       ((heldBin r.source ∧ r.dest ≠ .reject) ∨ heldBin r.dest, .held),
       ((∃ i, r.dest = .bin i ∧ (s.bin i).level = .critical) ∧ ¬self, .hot),
       (s.commodityOf r.dest ≠ none ∧ s.commodityOf r.dest ≠ s.commodityOf r.source, .commodity),
       (storage = true ∧ ∃ u rest, units = u :: rest ∧ storable u = false, .wet),
       (r.dest = .berth ∧ ∃ u rest, units = u :: rest ∧ s.btu.worstGrade < u.grade, .grade),
       (s.inboundOf r.dest ≠ none ∨ s.outboundOf r.source ≠ none, .busy),
       (r.dest = .dryer ∧ 6 ≤ s.dru.batches.length ∧ ∀ b ∈ s.dru.batches, b.state ≠ .filling, .full),
       (r.dest = .berth ∧ s.btu.fresh = false, .noRoom),
       (∃ a ∈ allowances, a ≤ (r.drainAllowance : Int), .noRoom)]
    let x : Transfer :=
      { number := issueNumber 65535 s.openTransfers s.rc.transferCtr, source := r.source, dest := r.dest, bargeHold := hold,
        requested := if requested = 0 then none else some requested, reported := 0, delivered := 0, lots := [],
        shortfall := false, overrun := false, overfill := false, untraced := false, cause := none,
        massAtStart := s.massOf r.source, openLayer := none, startTime := s.term, tripTime := 0, closeTime := 0 }
    (∀ (k : Nat) (bad : Prop × Code), lines[k]? = some bad → bad.1 →
      (∀ (j : Nat) (y : Prop × Code), j < k → lines[j]? = some y → ¬y.1) →
      exec (.startTransfer p seq body) s = .next (s.answeredAt .startTransfer p seq bad.2 [])) ∧
    ((∀ y ∈ lines, ¬y.1) → ∃ t, exec (.startTransfer p seq body) s = .next t ∧
      t.claim n = some { c with state := .running x, rev := nextRev c.rev } ∧
      (∀ m, m ≠ n → t.claim m = s.claim m) ∧
      (∀ i, (s.seg i).state = .held n → t.seg i = { s.seg i with permit := true, rev := nextRev (s.seg i).rev }) ∧
      (∀ i, (s.seg i).state ≠ .held n → t.seg i = s.seg i) ∧
      (r.source ≠ .reject → t.outboundOf r.source = some n) ∧
      (∀ i, r.dest = .bin i → (t.bin i).inbound = some n) ∧ (r.dest = .dryer → t.rc.dryerIn = some n) ∧
      (r.dest = .berth → t.rc.berthIn = some n) ∧
      t.rc.running = s.rc.running ++ [(x.number, r.source)] ∧ t.rc.transferCtr = x.number ∧
      t.answers .startTransfer p seq .ok (t.claimBodyOf n) ∧
      (∀ i, (t.bin i).layers = (s.bin i).layers) ∧ (∀ i, (t.pit i).layer = (s.pit i).layer) ∧
      t.dru.batches = s.dru.batches ∧ t.btu.holds = s.btu.holds ∧ t.tlr = s.tlr ∧
      t.inv.balance = s.inv.balance ∧ t.wbu = s.wbu ∧ t.evr = s.evr ∧ t.cfg = s.cfg ∧ t.clock = s.clock ∧
      t.rsc = { s.rsc with queue := t.rsc.queue })

/-- REPORT MASS moves from the source to the destination exactly the mass the source releases, keeps the transfer's
figures and flags, and trips it when it must. The model's choices in it: log entry 16 (the claim body of the OK
answer, at an increment of 0 too, without a separate revision) and log entry 11 (a counter that outgrows its 8
bytes). Basis: 06_routes_claims_and_transfers.md, section 6.5 (R106, R107, R108, R109);
06_routes_claims_and_transfers.md, section 6.6 (R110); 05_bins_and_layers.md, section 5.3 (R81, R82);
05_bins_and_layers.md, section 5.1 (R74). -/
def Obligations.ReportMassMovesExactlyWhatTheSourceReleases : Prop :=
  ∀ (p : Port) (seq : Byte) (body : List Byte) (n rev x mass : Nat) (c : Claim) (y : Transfer) (s : State),
    s.accepts .reportMass p → fields [1, 2, 2, 4] body = some [n, rev, x, mass] → n ≠ 0 → x ≠ 0 →
    s.claimOfTransfer x = some (c, y) → s.claim n = some c → (rev = 0 ∨ rev = c.rev) → c.holder = p →
    (s.rc.claims.map (·.number)).Nodup →
    (mass < y.reported → exec (.reportMass p seq body) s = .next (s.answeredAt .reportMass p seq .backward [])) ∧
    (mass = y.reported → exec (.reportMass p seq body) s
      = .next (s.answeredAt .reportMass p seq .ok (s.claimBody c))) ∧
    (y.reported < mass →
      y.source ≠ .berth → y.source ≠ .reject → (∀ i, y.dest ≠ .pit i) → (y.source = y.dest → y.source ≠ .dryer) →
      (y.dest = .berth → 1 ≤ y.bargeHold ∧ y.bargeHold ≤ s.btu.holds.length) →
      (∀ i, y.dest = .bin i → ((s.bin i).layers.map (·.number)).Nodup) →
      (s.dru.batches.filter fun b => b.state == .filling).length ≤ 1 →
      let self : Prop := y.source = y.dest
      let asked := mass - y.reported
      let releasable : Nat := match y.source with
        | .bin i =>
          if (s.bin i).unverified then 0
          else if self then match y.openLayer with
            | some k => (((s.bin i).layers.takeWhile fun l => l.number != k).map (·.mass)).sum
            | none => (s.bin i).mass
          else (s.bin i).mass
        | .pit i => if (s.pit i).unverified = false ∧ (s.pit i).state = .loaded then (s.pit i).mass else 0
        | .dryer => ((s.dru.batches.filter fun b => b.state == .dried).map (·.remaining)).sum
        | _ => 0
      let moved := min asked releasable
      let held (s : State) : Loc → Nat
        | .bin i => (s.bin i).mass
        | .pit i => (s.pit i).mass
        | .dryer => (s.dru.batches.map fun b => if b.state = .dried then b.remaining else b.inMass).sum
        | .berth => (s.btu.holds.map (·.loaded)).sum
        | .reject => 0
      ∃ t d z, exec (.reportMass p seq body) s = .next t ∧ t.claim n = some d ∧ d.transfer = some z ∧
        (∀ l, l ≠ .reject → held t l + (if l = y.source then moved else 0) = held s l + (if l = y.dest then moved else 0)) ∧
        (∀ j, .bin j ≠ y.source → .bin j ≠ y.dest → (t.bin j).layers = (s.bin j).layers) ∧
        (∀ j, .pit j ≠ y.source → (t.pit j).layer = (s.pit j).layer) ∧
        (y.source ≠ .dryer → y.dest ≠ .dryer → t.dru.batches = s.dru.batches) ∧
        (y.dest ≠ .berth → t.btu.holds = s.btu.holds) ∧
        (y.dest = .reject → 0 < moved →
          t.inv.balance = { s.inv.balance with rejected := fitSigned64 (s.inv.balance.rejected + moved) }) ∧
        (y.dest ≠ .reject → t.inv.balance = s.inv.balance) ∧
        z.number = x ∧ z.reported = mass ∧ z.delivered = y.delivered + moved ∧ z.source = y.source ∧ z.dest = y.dest ∧
        z.requested = y.requested ∧ z.massAtStart = y.massAtStart ∧ y.lots <+: z.lots ∧ z.lots.length ≤ max 16 y.lots.length ∧
        (z.shortfall = true ↔ y.shortfall = true ∨ (¬self ∧ moved < asked)) ∧
        (z.overrun = true ↔ y.overrun = true ∨ ∃ a, s.leastHard y = some a ∧ a < moved) ∧
        (d.state = .running z → t.soft z ≠ some 0 ∧ t.atLimit c.route z = false) ∧
        (c.state = .running y → d.state = .running z ∨ ∃ due cause, d.state = .draining z due ∧ z.cause = some cause ∧
          ((cause = .sourceEmpty ∧ t.soft z = some 0) ∨
           (cause = .limit ∧ t.soft z ≠ some 0 ∧ t.atLimit c.route z = true) ∨
           (cause = .ceilingCut ∧ y.dest = .berth) ∨ (cause = .hot ∧ ¬self ∧ ∃ i, y.dest = .bin i))) ∧
        (∀ due, c.state = .draining y due → d.state = .draining z due) ∧
        t.rc.claims.map (·.number) = s.rc.claims.map (·.number) ∧ t.rc.ring = s.rc.ring ∧
        t.answers .reportMass p seq .ok (t.claimBody d) ∧ t.tlr.tickets = s.tlr.tickets ∧ t.wbu = s.wbu ∧ t.cfg = s.cfg ∧
        t.clock = s.clock ∧ t.ms = s.ms ∧ t.phase = s.phase ∧ t.rsc.store = s.rsc.store)

/-- The drain expiry closes the transfer into the recent ring, frees the claim and its segments and clears the
locations' claims. The model's choices in it: log entry 3 (the time an expiry leaves). Basis:
06_routes_claims_and_transfers.md, section 6.7 (R114); 06_routes_claims_and_transfers.md, section 6.3 (R101). -/
def Obligations.DrainExpiryClosesTheTransfer : Prop :=
  ∀ (n due : Nat) (c : Claim) (x : Transfer) (s : State), s.live = true → s.claim n = some c → c.state = .draining x due →
    let later : State := { s with ms := max s.ms due }
    ∃ t closed, exec (.drainExpiry n) s = .next t ∧
      t.rc.claims = s.rc.claims.filter (·.number != n) ∧
      (∀ i, (s.seg i).state = .held n →
        t.seg i = { s.seg i with state := .free, permit := false, rev := nextRev (s.seg i).rev }) ∧
      (∀ i, (s.seg i).state ≠ .held n → t.seg i = s.seg i) ∧
      closed = { claim := n, holder := c.holder, route := c.route, hard := closed.hard,
                 transfer := { x with closeTime := later.term } } ∧
      t.rc.ring = (s.rc.ring ++ [closed]).drop (s.rc.ring.length + 1 - 16) ∧
      t.inboundOf x.dest = none ∧ t.outboundOf x.source = none ∧ t.ms = later.ms ∧
      (∀ i, (t.bin i).layers = (s.bin i).layers) ∧ (∀ i, (t.pit i).layer = (s.pit i).layer) ∧
      t.dru.batches = s.dru.batches ∧ t.btu.holds = s.btu.holds ∧ t.tlr = s.tlr ∧
      t.inv.balance = s.inv.balance ∧ t.evr = s.evr ∧ t.wbu = s.wbu ∧ t.cfg = s.cfg ∧ t.clock = s.clock ∧
      t.rsc = { s.rsc with queue := t.rsc.queue }

/-- RELEASE CLAIM frees a CLAIMED claim, trips a RUNNING one into DRAINING and leaves a DRAINING one. The model's
choices in it: log entry 16 (the claim body of the OK answers, without a separate revision). Basis:
06_routes_claims_and_transfers.md, section 6.7 (R111, R116). -/
def Obligations.ReleaseClaimFreesTripsOrLeaves : Prop :=
  ∀ (p : Port) (seq : Byte) (body : List Byte) (n rev : Nat) (c : Claim) (s : State),
    s.accepts .releaseClaim p → fields [1, 2] body = some [n, rev] → n ≠ 0 → s.claim n = some c →
    (rev = 0 ∨ rev = c.rev) →
    let kept (t : State) : Prop :=
      (∀ i, (t.bin i).layers = (s.bin i).layers) ∧ (∀ i, (t.pit i).layer = (s.pit i).layer) ∧
      t.dru.batches = s.dru.batches ∧ t.btu.holds = s.btu.holds ∧ t.tlr = s.tlr ∧
      t.inv.balance = s.inv.balance ∧ t.wbu = s.wbu ∧ t.cdm = s.cdm ∧ t.cfg = s.cfg ∧ t.clock = s.clock ∧ t.ms = s.ms ∧
      t.rsc = { s.rsc with queue := t.rsc.queue }
    (c.holder ≠ p → p ≠ .office →
      exec (.releaseClaim p seq body) s = .next (s.answeredAt .releaseClaim p seq .foreign [])) ∧
    ((c.holder = p ∨ p = .office) →
      (∀ x due, c.state = .draining x due →
        exec (.releaseClaim p seq body) s = .next (s.answeredAt .releaseClaim p seq .ok (s.claimBody c))) ∧
      (c.state = .claimed → ∃ t, exec (.releaseClaim p seq body) s = .next t ∧
        t.rc = { s.rc with claims := s.rc.claims.filter (·.number != n), segments := t.rc.segments } ∧
        (∀ i, (s.seg i).state = .held n →
          t.seg i = { s.seg i with state := .free, permit := false, rev := nextRev (s.seg i).rev }) ∧
        (∀ i, (s.seg i).state ≠ .held n → t.seg i = s.seg i) ∧
        t.answers .releaseClaim p seq .ok (s.claimBody c) ∧ t.evr = s.evr ∧ t.inv = s.inv ∧ kept t) ∧
      (∀ x, c.state = .running x → ∃ t, exec (.releaseClaim p seq body) s = .next t ∧
        t.claim n = some (let y : Transfer := { x with cause := some .released, tripTime := s.term }
          { c with rev := nextRev c.rev, state := .draining y (s.ms + 1000 * s.drainTime c.route) }) ∧
        (∀ m, m ≠ n → t.claim m = s.claim m) ∧
        (∀ i, (s.seg i).state = .held n → t.seg i = { s.seg i with permit := false, rev := nextRev (s.seg i).rev }) ∧
        (∀ i, (s.seg i).state ≠ .held n → t.seg i = s.seg i) ∧
        t.rc.running = s.rc.running.filter (·.1 != x.number) ∧
        t.evr = (s.logEvent .trip (.location x.source.number) 8).evr ∧
        t.answers .releaseClaim p seq .ok (t.claimBodyOf n) ∧ kept t))

/-- A RUNNING report faults a FREE segment and one of a CLAIMED claim, which it frees; any other is only recorded;
CLEAR SEGMENT FAULT frees a stopped one. The model's choices in it: log entry 15 (a fault on a first RUNNING
report raises the revision twice, for the motion and for the state). Basis: 06_routes_claims_and_transfers.md,
section 6.8 (R117, R118, R119). -/
def Obligations.MotionReportsFaultAnUnheldSegment : Prop :=
  (∀ (p : Port) (seq : Byte) (body : List Byte) (i : SegIx) (rev motion : Nat) (s : State),
    s.accepts .reportSegmentMotion p → fields [1, 2, 1] body = some [i.val + 1, rev, motion] → motion ≤ 1 →
    (rev = 0 ∨ rev = (s.seg i).rev) →
    let x := s.seg i
    let told (x : Segment) : Segment :=
      let rev := if x.running = (motion == 1) then x.rev else nextRev x.rev
      { x with running := motion == 1, motionTime := s.term, rev := rev }
    ((motion = 0 ∨ x.state = .faulted ∨ s.segMoves i = true) →
      ∃ t, exec (.reportSegmentMotion p seq body) s = .next t ∧ t.seg i = told x ∧ (∀ j, j ≠ i → t.seg j = s.seg j) ∧
        t.rc = { s.rc with segments := t.rc.segments } ∧
        t.port p = (s.port p).answered s.ms 0x34 seq .ok ((told x).body i) ∧ s.linesKept t p ∧
        t = { s with rc := t.rc, ports := t.ports }) ∧
    (motion = 1 → x.state = .free →
      ∃ t, exec (.reportSegmentMotion p seq body) s = .next t ∧
        t.seg i = { told x with state := .faulted, permit := false, rev := nextRev (told x).rev } ∧
        (∀ j, j ≠ i → t.seg j = s.seg j) ∧ t.rc = { s.rc with segments := t.rc.segments } ∧
        t.evr = (s.logEvent .segmentFault (.segment (i.val + 1)) 0).evr ∧
        t.answers .reportSegmentMotion p seq .ok ((t.seg i).body i) ∧ s.linesKept t p ∧
        t = { s with rc := t.rc, ports := t.ports, evr := t.evr, rsc := { s.rsc with queue := t.rsc.queue } }) ∧
    (∀ n c, motion = 1 → x.state = .held n → s.claim n = some c → c.state = .claimed →
      ∃ t, exec (.reportSegmentMotion p seq body) s = .next t ∧
        t.seg i = { told x with state := .faulted, permit := false, rev := nextRev (told x).rev } ∧
        (∀ j, j ≠ i → (s.seg j).state = .held n →
          t.seg j = { s.seg j with state := .free, permit := false, rev := nextRev (s.seg j).rev }) ∧
        (∀ j, j ≠ i → (s.seg j).state ≠ .held n → t.seg j = s.seg j) ∧
        t.rc = { s.rc with segments := t.rc.segments, claims := s.rc.claims.filter (·.number != n) } ∧
        t.evr = (s.logEvent .segmentFault (.segment (i.val + 1)) n).evr ∧
        t.answers .reportSegmentMotion p seq .ok ((t.seg i).body i) ∧ s.linesKept t p ∧
        t = { s with rc := t.rc, ports := t.ports, evr := t.evr, rsc := { s.rsc with queue := t.rsc.queue } })) ∧
  ∀ (p : Port) (seq : Byte) (body : List Byte) (i : SegIx) (rev : Nat) (s : State),
    s.accepts .clearSegmentFault p → fields [1, 2] body = some [i.val + 1, rev] → (rev = 0 ∨ rev = (s.seg i).rev) →
    (((s.seg i).state ≠ .faulted ∨ (s.seg i).running = true) →
      exec (.clearSegmentFault p seq body) s = .next (s.answeredAt .clearSegmentFault p seq .badState [])) ∧
    ((s.seg i).state = .faulted → (s.seg i).running = false →
      let new : Segment := { s.seg i with state := .free, rev := nextRev (s.seg i).rev }
      ∃ t, exec (.clearSegmentFault p seq body) s = .next t ∧ t.seg i = new ∧ (∀ j, j ≠ i → t.seg j = s.seg j) ∧
        t.rc = { s.rc with segments := t.rc.segments } ∧
        t.port p = (s.port p).answered s.ms 0x35 seq .ok (new.body i) ∧
        s.othersTold t p (.segment i) new.rev ∧ t = { s with rc := t.rc, ports := t.ports })

/-- CLOSE FEED makes the FILLING batch DRYING, or removes it when it holds no mass, unless a feed claim stands. The
model's choices in it: log entry 16 (the header of an OK body shows first position 0). Basis: 07_drying.md,
section 7.3 (R128). -/
def Obligations.CloseFeedClosesTheFillingBatch : Prop :=
  ∀ (p : Port) (seq : Byte) (body : List Byte) (rev : Nat) (s : State),
    s.accepts .closeFeed p → fields [2] body = some [rev] →
    let refused (code : Code) (x : List Byte) : Prop :=
      exec (.closeFeed p seq body) s = .next (s.answeredAt .closeFeed p seq code x)
    (¬(rev = 0 ∨ rev = s.dru.rev) → refused .stale (u16 s.dru.rev)) ∧
    ((rev = 0 ∨ rev = s.dru.rev) →
      (∀ n, s.rc.dryerIn = some n → refused .busy []) ∧
      (s.rc.dryerIn = none → (∀ b ∈ s.dru.batches, b.state ≠ .filling) → refused .badState []) ∧
      (s.rc.dryerIn = none → ∀ (xs ys : List Batch) (b : Batch), s.dru.batches = xs ++ b :: ys → b.state = .filling →
        (∀ x ∈ xs ++ ys, x.state ≠ .filling) →
        let left := if b.inMass = 0 then xs ++ ys else xs ++ { b with state := .drying, closeTime := s.term } :: ys
        let commodity := if left = [] then none else s.dru.commodity
        let new : Dru := { s.dru with batches := left, commodity := commodity, rev := nextRev s.dru.rev }
        ∃ t, exec (.closeFeed p seq body) s = .next t ∧ t.dru = new ∧
          t.port p = (s.port p).answered s.ms 0x40 seq .ok (u16 new.rev ++ new.header none s.rc.dryerOut 0 0) ∧
          s.othersTold t p .batchList new.rev ∧ t.rsc = (s.enqueue ⟨.batchList, 0⟩).rsc ∧
          t = { s with dru := t.dru, ports := t.ports, rsc := t.rsc }))

/-- REPORT BATCH OUT dries the oldest DRYING batch at the reported figures, books the loss, and raises a discrepancy
only beyond the tolerance. The model's choices in it: log entry 16 (the header of an OK body shows first
position 0) and log entry 11 (a counter that outgrows its 8 bytes). Basis: 07_drying.md, section 7.4 (R129,
R130, R131); 04_mass_moisture_and_draft_arithmetic.md, section 4.5 (R61). -/
def Obligations.ReportBatchOutBooksTheDryingLoss : Prop :=
  ∀ (p : Port) (seq : Byte) (body : List Byte) (rev mass moisture : Nat) (s : State),
    s.accepts .reportBatchOut p → fields [2, 4, 2] body = some [rev, mass, moisture] →
    let refused (code : Code) (x : List Byte) : Prop :=
      exec (.reportBatchOut p seq body) s = .next (s.answeredAt .reportBatchOut p seq code x)
    (¬(rev = 0 ∨ rev = s.dru.rev) → refused .stale (u16 s.dru.rev)) ∧
    ((rev = 0 ∨ rev = s.dru.rev) → (∀ b ∈ s.dru.batches, b.state ≠ .drying) → refused .badState []) ∧
    ∀ (xs ys : List Batch) (b : Batch), (rev = 0 ∨ rev = s.dru.rev) → s.dru.batches = xs ++ b :: ys → b.state = .drying →
      (∀ x ∈ xs, x.state ≠ .drying) →
      ((mass = 0 ∨ b.inMass < mass) → refused .range []) ∧
      (0 < mass → mass ≤ b.inMass →
        let out := min moisture 350
        let expected := (1000 * b.inMass - b.inSum) / (1000 - out)
        let tolerance := b.inMass * s.berthCfg.tolerance / 1000
        let difference : Int := (mass : Int) - expected
        let safe := ∃ c, s.dru.commodity = some c ∧ s.isConfigured c = true ∧ out ≤ (s.commodity c).safeMoisture
        ∃ t d, exec (.reportBatchOut p seq body) s = .next t ∧
          d = { b with state := .dried, outMass := mass, outMoisture := out, remaining := mass, outTime := s.term,
                       underdried := d.underdried } ∧ (d.underdried = true ↔ ¬safe) ∧
          t.dru = { s.dru with batches := xs ++ d :: ys, rev := nextRev s.dru.rev } ∧
          t.inv.balance = { s.inv.balance with
            dryingLoss := fitSigned64 (s.inv.balance.dryingLoss + ((b.inMass : Int) - mass)) } ∧
          t.tlr = s.tlr ∧ t.wbu = s.wbu ∧ t.cfg = s.cfg ∧ t.clock = s.clock ∧ t.ms = s.ms ∧ t.rsc.store = s.rsc.store ∧
          let beyond := tolerance < difference.natAbs
          let notice : Notice := ⟨.dryerDiscrepancy,
            u16 b.number ++ u32 b.inMass ++ u32 mass ++ u32 expected ++ u32 tolerance ++ s32 difference⟩
          let offered (q : SlpPort) : SlpPort := if beyond then q.offer notice else q
          let told (q : Port) : SlpPort := if q = .dryer ∨ q = .office then offered (s.port q) else s.port q
          let logged : State := if beyond then s.logEvent .dryerDiscrepancy (.location 31) difference else s
          let answer := u16 t.dru.rev ++ t.dru.header s.rc.dryerIn s.rc.dryerOut 0 0 ++ u16 b.number ++ u32 expected
            ++ u32 tolerance ++ s32 difference ++ [if beyond then 1 else 0]
          t.answers .reportBatchOut p seq .ok answer ∧
          (∃ trips : List Loc, t.evr = (trips.foldl (fun s l => s.logEvent .trip (.location l.number) 1) logged).evr) ∧
          (∀ q, ∃ more, (t.port q).notices = (told q).notices ++ more) ∧
          ((∀ c ∈ s.rc.claims, ∀ x, c.state = .running x → x.source ≠ .dryer) →
            t.evr = logged.evr ∧
            t.port p = (offered (s.port p)).answered s.ms 0x41 seq .ok answer ∧
            (∀ q, q ≠ p → t.port q = (told q).endWatch .batchList .changed (u16 t.dru.rev)) ∧
            t = { s with dru := t.dru, inv := { s.inv with balance := t.inv.balance }, ports := t.ports, evr := t.evr,
                         rsc := { s.rsc with queue := t.rsc.queue } }))

/-- START SURVEY takes its scope nodes and asks the first for a self-check; ABORT SURVEY ends the survey ABORTED
into the log. Basis: 08_grain_condition_and_rotation.md, section 8.8 (R148, R151, R152). -/
def Obligations.SurveysStartAndAbort : Prop :=
  (∀ (body : List Byte) (spans : Spans), parseSurvey body = some spans ↔
    spans.length ≤ 4 ∧ (∀ x ∈ spans, x.1 ≤ x.2) ∧
    body = BitVec.ofNat 8 spans.length ::
      spans.flatMap fun x => [BitVec.ofNat 8 (x.1.val + 1), BitVec.ofNat 8 (x.2.val + 1)]) ∧
  (∀ (p : Port) (seq : Byte) (body : List Byte) (s : State), s.accepts .startSurvey p →
    (parseSurvey body = none →
      exec (.startSurvey p seq body) s = .next (s.answeredAt .startSurvey p seq .range s.surveyReport)) ∧
    (∀ spans r, parseSurvey body = some spans → s.cdm.survey = some r →
      exec (.startSurvey p seq body) s = .next (s.answeredAt .startSurvey p seq .busy s.surveyReport)) ∧
    (∀ spans, parseSurvey body = some spans → s.cdm.survey = none →
      let number := if s.cdm.surveyCtr ≥ 255 then 1 else s.cdm.surveyCtr + 1
      let entry : SurveyEntry := ⟨number, .completedOk, s.term, s.term, spans, none⟩
      ∃ t, exec (.startSurvey p seq body) s = .next t ∧ t.cdm.surveyCtr = number ∧
        t.answers .startSurvey p seq .ok t.surveyReport ∧ s.linesKept t p ∧
        t = { s with cdm := t.cdm, ports := t.ports, evr := t.evr, rsc := { s.rsc with queue := t.rsc.queue } } ∧
        (s.scopeNodes spans = [] → t.cdm.survey = none ∧ t.cdm.log = (entry :: s.cdm.log).take 8 ∧
          t.evr = (s.logEvent .surveyEnd .none 0).evr) ∧
        (∀ a rest, s.scopeNodes spans = a :: rest →
          t.cdm = { s.cdm with
            surveyCtr := number, surveyWait := some (.selfCheck a),
            survey := some ⟨number, p, spans, s.term, a :: rest, a :: rest, 1, none, none, none, none⟩ } ∧
          t.evr = s.evr ∧ (∀ q, q ≠ p → t.port q = s.port q) ∧ t.rsc = (s.enqueue ⟨.survey, 0⟩).rsc))) ∧
  ∀ (p : Port) (seq : Byte) (s : State), s.accepts .abortSurvey p →
    (s.cdm.survey = none →
      exec (.abortSurvey p seq []) s = .next (s.answeredAt .abortSurvey p seq .badState s.surveyReport)) ∧
    (∀ r, s.cdm.survey = some r →
      let loc := (r.silentAt.or r.failedAt).or r.suspectAt
      let entry : SurveyEntry := ⟨r.number, .aborted, r.startTime, s.term, r.spans, loc⟩
      let offered (q : Port) : SlpPort :=
        if q = r.port ∨ q = .office then (s.port q).offer ⟨.surveyDone, entry.bytes⟩ else s.port q
      ∃ t, exec (.abortSurvey p seq []) s = .next t ∧
        t.cdm = { s.cdm with survey := none, surveyWait := none, log := (entry :: s.cdm.log).take 8,
                             bus := s.cdm.bus.map fun b => if b.owner = .survey then { b with owner := .orphan } else b } ∧
        t.evr = (s.logEvent .surveyEnd (s.locNode loc) 1).evr ∧
        t.port p = (offered p).answered s.ms 0x49 seq .ok t.surveyReport ∧ (∀ q, q ≠ p → t.port q = offered q) ∧
        t = { s with cdm := t.cdm, ports := t.ports, evr := t.evr, rsc := { s.rsc with queue := t.rsc.queue } })

/-- A poll cycle asks for CONVERT, takes a free bus before the survey, waits 750 ms, reads the nodes out of the
survey's scope, or counts them when CONVERT fails. The model's choices in it: log entry 38 (the poll cycle's
waiting transaction goes before the survey's each time), log entry 3 (the time an expiry leaves), log entry 4
(nothing waiting and a busy bus) and log entry 7 (60 s while no cable map is loaded). Basis:
08_grain_condition_and_rotation.md, section 8.2 (R135, R136); 08_grain_condition_and_rotation.md, section 8.3
(R137); 08_grain_condition_and_rotation.md, section 8.4 (R139). -/
def Obligations.ThePollCycleTakesTheBusFirst : Prop :=
  ∀ s : State, s.live = true →
    (∀ due period, s.cdm.pollDue = some due → (∀ x, s.cfg.cables = some x → x.period = period) →
      (s.cfg.cables = none → period = 60) →
      let c : Cdm := { s.cdm with pollDue := some (due + 1000 * period) }
      let later : State := { s with ms := max s.ms due }
      (s.cdm.poll ≠ .idle → exec .pollCycleExpiry s = .next { later with cdm := c }) ∧
      (s.cdm.poll = .idle →
        exec .pollCycleExpiry s = .next { later with cdm := { c with poll := .converting, pollWait := some .convert } })) ∧
    (∀ b, s.cdm.bus = some b → exec .busTransactionStart s = .next s) ∧
    (s.cdm.bus = none →
      (∀ k, s.cdm.pollWait = some k →
        exec .busTransactionStart s = .next { s with cdm := { s.cdm with bus := some ⟨.poll, k⟩, pollWait := none } }) ∧
      (∀ k, s.cdm.pollWait = none → s.cdm.surveyWait = some k →
        exec .busTransactionStart s = .next { s with cdm := { s.cdm with bus := some ⟨.survey, k⟩, surveyWait := none } }) ∧
      (s.cdm.pollWait = none → s.cdm.surveyWait = none → exec .busTransactionStart s = .next s)) ∧
    (∀ o, s.cdm.bus = some ⟨o, .convert⟩ →
      exec (.convertComplete true) s
        = .next { s with cdm := { s.cdm with bus := none, poll := .waiting (s.ms + 750) } }) ∧
    (∀ o, s.cdm.bus = some ⟨o, .convert⟩ → (s.cdm.nodes.map (·.addr)).Nodup →
      (∀ n ∈ s.cdm.nodes, 0x10 ≤ n.addr ∧ n.addr ≤ 0x6F) →
      ∃ t, exec (.convertComplete false) s = .next t ∧ t.cdm.bus = none ∧ t.cdm.poll = .idle ∧
        t.cdm.pollWait = s.cdm.pollWait ∧ t.cdm.survey = s.cdm.survey ∧ t.cdm.nodes.length = s.cdm.nodes.length ∧
        (∀ (j : Nat) (n m : Node), s.cdm.nodes[j]? = some n → t.cdm.nodes[j]? = some m →
          m.addr = n.addr ∧ m.bin = n.bin ∧ m.cable = n.cable ∧
          (∀ k : Fin 8, m.points[k].code = n.points[k].code ∧ m.points[k].good = n.points[k].good) ∧
          (n.addr ∈ s.scope → m.noAnswer = n.noAnswer ∧ m.silent = n.silent) ∧
          (n.addr ∉ s.scope → m.noAnswer = min 3 (n.noAnswer + 1) ∧
            (m.silent = true ↔ n.silent = true ∨ 2 ≤ n.noAnswer))) ∧
        (∀ i, (t.bin i).layers = (s.bin i).layers) ∧ (∀ i, (t.pit i).layer = (s.pit i).layer) ∧
        t.tlr = s.tlr ∧ t.wbu = s.wbu ∧ t.cfg = s.cfg ∧ t.ms = s.ms ∧ t.rsc.store = s.rsc.store) ∧
    (∀ due, s.cdm.poll = .waiting due → (∀ n ∈ s.cdm.nodes, 0x10 ≤ n.addr ∧ n.addr ≤ 0x6F) →
      (∀ a, a ∉ s.scope → (∃ n ∈ s.cdm.nodes, n.addr = a) → (∀ n ∈ s.cdm.nodes, n.addr ∉ s.scope → a ≤ n.addr) →
        ∃ rest, exec .pollConversionWait s = .next { s with
            ms := max s.ms due, cdm := { s.cdm with poll := .reading a rest, pollWait := some (.readPoints a) } } ∧
          rest.Pairwise (· < ·) ∧ ∀ x, x ∈ rest ↔ a < x ∧ ∃ n ∈ s.cdm.nodes, n.addr = x) ∧
      ((∀ n ∈ s.cdm.nodes, n.addr ∈ s.scope) → ∃ t, exec .pollConversionWait s = .next t ∧
        t.cdm.poll = .idle ∧ t.cdm.bus = s.cdm.bus ∧ t.cdm.survey = s.cdm.survey ∧ t.ms = max s.ms due ∧
        (∀ i, (t.bin i).layers = (s.bin i).layers) ∧ (∀ i, (t.pit i).layer = (s.pit i).layer) ∧
        t.tlr = s.tlr ∧ t.wbu = s.wbu ∧ t.cfg = s.cfg ∧ t.rsc.store = s.rsc.store))

/-- A READ POINTS reply that checks is stored and clears the node's count; any other end counts, and the third in a
row latches CABLE_SILENT. Basis: 08_grain_condition_and_rotation.md, section 8.2 (R135);
08_grain_condition_and_rotation.md, section 8.3 (R137); 08_grain_condition_and_rotation.md, section 8.4 (R138,
R139). -/
def Obligations.RepliesAreStoredOrCounted : Prop :=
  (∀ (s : State) (o : BusOwner) (addr : Nat) (reply : Option (List Byte)), s.live = true →
    s.cdm.bus = some ⟨o, .readPoints addr⟩ → (s.cdm.nodes.map (·.addr)).Nodup →
    let good (codes : List Byte) : Prop :=
      ∃ check, reply = some (codes ++ [check]) ∧ codes.length = 8 ∧ BitVec.ofNat 8 addr + sumBytes codes + check = 0
    let kept (n m : Node) : Prop := m.addr = n.addr ∧ m.bin = n.bin ∧ m.cable = n.cable
    let same (n m : Node) : Prop := ∀ k : Fin 8, m.points[k].code = n.points[k].code ∧ m.points[k].good = n.points[k].good
    ∃ t, exec (.readPointsEnd reply) s = .next t ∧ t.cdm.bus = none ∧ t.cdm.nodes.length = s.cdm.nodes.length ∧
      (∀ (j : Nat) (n m : Node), s.cdm.nodes[j]? = some n → t.cdm.nodes[j]? = some m → kept n m ∧
        (n.addr ≠ addr → same n m ∧ m.noAnswer = n.noAnswer ∧ m.silent = n.silent) ∧
        (n.addr = addr →
          (∀ codes, good codes → m.noAnswer = 0 ∧ m.silent = false ∧ ∀ (k : Fin 8) (c : Byte), codes[k.val]? = some c →
            m.points[k].code = (if 0x82 ≤ c.toNat ∧ c.toNat ≤ 0xC3 then 0x81 else c) ∧ m.points[k].good = some s.ms) ∧
          ((∀ codes, ¬good codes) → same n m ∧ m.noAnswer = min 3 (n.noAnswer + 1) ∧
            (m.silent = true ↔ n.silent = true ∨ 2 ≤ n.noAnswer)))) ∧
      (o = .orphan → t = { s with cdm := { s.cdm with bus := none, nodes := t.cdm.nodes }, evr := t.evr,
                                  rsc := { s.rsc with queue := t.rsc.queue } } ∧
        (∀ n ∈ s.cdm.nodes, n.addr = addr →
          ((∀ codes, ¬good codes) → 2 ≤ n.noAnswer → n.silent = false →
            t.evr = (s.logEvent .cableSilent (.node addr) (n.bin.val + 1)).evr) ∧
          (((∃ codes, good codes) ∨ n.noAnswer < 2 ∨ n.silent = true) → t.evr = s.evr))) ∧
      (o = .poll → ∀ x ys b zs, s.cdm.poll = .reading x (ys ++ b :: zs) → (∀ y ∈ ys, y ∈ s.scope) → b ∉ s.scope →
        t.cdm.poll = .reading b zs ∧ t.cdm.pollWait = some (.readPoints b))) ∧
  ∀ (s : State) (o : BusOwner) (addr : Nat), s.live = true →
    let same (c : Instr) : Prop := ∃ t, exec .clockHoldTimeout s = .next t ∧ exec c s = .next t ∧ t.cdm.bus = none
    (s.cdm.bus = some ⟨o, .readPoints addr⟩ → same (.readPointsEnd none)) ∧
    (s.cdm.bus = some ⟨o, .selfCheck addr⟩ → same (.selfCheckEnd false)) ∧
    (s.cdm.bus = some ⟨o, .convert⟩ → same (.convertComplete false))

/-- A survey self-checks, waits 750 ms and reads each node, tries a failed one twice, and records the first location
of each kind. The model's choices in it: log entry 3 (the time an expiry leaves). Basis:
08_grain_condition_and_rotation.md, section 8.8 (R149, R150, R151). -/
def Obligations.SurveyStepsMakeTwoAttempts : Prop :=
  (∀ (s : State) (r : SurveyRun) (a : Nat) (rest : List Nat), s.live = true → s.cdm.survey = some r → r.todo = a :: rest →
    (s.cdm.bus = some ⟨.survey, .selfCheck a⟩ →
      (exec (.selfCheckEnd true) s
        = .next { s with cdm := { s.cdm with bus := none, survey := some { r with wait := some (s.ms + 750) } } }) ∧
      (r.attempt = 1 → ∃ t, exec (.selfCheckEnd false) s = .next t ∧
        t.cdm = { s.cdm with bus := none, nodes := t.cdm.nodes, surveyWait := some (.selfCheck a),
                             survey := some { r with attempt := 2, wait := none } } ∧
        t = { s with cdm := t.cdm, evr := t.evr, rsc := { s.rsc with queue := t.rsc.queue } }) ∧
      (∀ n, r.attempt = 2 → s.node a = some n →
        let loc := r.silentAt.or (some ⟨n.bin, n.cable, 0⟩)
        ∃ t, exec (.selfCheckEnd false) s = .next t ∧ t.cdm.bus = none ∧ t.tlr = s.tlr ∧ t.wbu = s.wbu ∧
          (∀ b more, rest = b :: more →
            t.cdm.survey = some { r with todo := rest, attempt := 1, wait := none, silentAt := loc } ∧
            t.cdm.surveyWait = some (.selfCheck b)) ∧
          (rest = [] → t.cdm.survey = none ∧ t.cdm.surveyWait = none ∧
            t.cdm.log = ((⟨r.number, .nodeSilent, r.startTime, s.term, r.spans, loc⟩ : SurveyEntry) :: s.cdm.log).take 8))) ∧
    (∀ due, r.wait = some due → exec .surveyConversionWait s = .next { s with
      ms := max s.ms due,
      cdm := { s.cdm with survey := some { r with wait := none }, surveyWait := some (.readPoints a) } }) ∧
    (∀ codes check n b more, s.cdm.bus = some ⟨.survey, .readPoints a⟩ → codes.length = 8 →
      BitVec.ofNat 8 a + sumBytes codes + check = 0 → s.node a = some n → rest = b :: more →
      let m := n.answered codes s.ms
      ∃ t, exec (.readPointsEnd (some (codes ++ [check]))) s = .next t ∧ t.cdm.bus = none ∧
        t.cdm.surveyWait = some (.selfCheck b) ∧
        t.cdm.survey = some { r with todo := rest, attempt := 1, wait := none,
                                     failedAt := r.failedAt.or m.failedPoint,
                                     suspectAt := r.suspectAt.or m.suspectPoint })) ∧
  ∀ (n : Node) (k : Fin 8),
    let temp (j : Fin 8) : Option Int :=
      let c := n.points[j].code
      if c.toNat ≤ 0x7F then some c.toNat else if 0xC4 ≤ c.toNat then some ((c.toNat : Int) - 256) else none
    let near (i j : Fin 8) : Prop := i.val + 1 = j.val ∨ j.val + 1 = i.val
    let suspect (i : Fin 8) : Prop :=
      ∃ x, temp i = some x ∧ (∃ j y, near i j ∧ temp j = some y) ∧
        ∀ j y, near i j → temp j = some y → 15 < (x - y).natAbs
    (n.failedPoint = some ⟨n.bin, n.cable, k.val + 1⟩ ↔
      n.points[k].code = 0x81 ∧ ∀ j : Fin 8, j < k → n.points[j].code ≠ 0x81) ∧
    (n.suspectPoint = some ⟨n.bin, n.cable, k.val + 1⟩ ↔ suspect k ∧ ∀ j : Fin 8, j < k → ¬suspect j)

/-- BERTH BARGE and AMEND PLAN take targets only within the cargo ceiling, and change the plan alone. The model's
choices in it: log entry 16 (the header of an OK body shows first barge hold 1). Basis: 09_barge_loading.md,
section 9.3 (R160, R161); 04_mass_moisture_and_draft_arithmetic.md, section 4.7 (R64). -/
def Obligations.BargePlansStayWithinTheirCeiling : Prop :=
  (∀ (p : Port) (seq : Byte) (body : List Byte) (x : BargePlan) (s : State),
    s.accepts .berthBarge p → parseBarge body = some x →
    let refused (code : Code) (y : List Byte) : Prop :=
      exec (.berthBarge p seq body) s = .next (s.answeredAt .berthBarge p seq code y)
    (¬(x.rev = 0 ∨ x.rev = s.btu.rev) → refused .stale (u16 s.btu.rev)) ∧
    ((x.rev = 0 ∨ x.rev = s.btu.rev) →
      (s.btu.state = .planned → refused .busy []) ∧
      (s.btu.state ≠ .planned → (s.btu.fresh = false ∨ s.btu.stage = none) → refused .badState []) ∧
      (∀ stage, s.btu.state ≠ .planned → s.btu.fresh = true → s.btu.stage = some stage →
        let inRange := s.isConfigured x.commodity = true ∧ x.maxMoisture ≤ 350 ∧ 1 ≤ x.grade ∧ x.grade ≤ 5 ∧
          50 ≤ x.hullMax ∧ x.hullMax ≤ 600 ∧ x.light ≤ 200 ∧ 1000 ≤ x.tpc ∧ x.tpc ≤ 50000 ∧
          2 ≤ x.targets.length ∧ x.targets.length ≤ 6
        let ceiling :=
          cargoCeiling s.berthCfg.datum s.berthCfg.clearance x.hullMax x.light x.tpc stage
        (¬(inRange ∧ x.targets.sum ≤ ceiling) → refused .range []) ∧
        (inRange → x.targets.sum ≤ ceiling → ∃ t, exec (.berthBarge p seq body) s = .next t ∧
          t.btu = { s.btu with
            state := .planned, bargeId := x.id, commodity := x.commodity, maxMoisture := x.maxMoisture,
            worstGrade := x.grade, hullMax := x.hullMax, lightDraft := x.light, tpc := x.tpc, ceiling := ceiling,
            holds := x.targets.map fun g => ⟨g, 0, 0, none, [], false⟩, berthTime := s.term, closeTime := 0,
            rev := nextRev s.btu.rev } ∧
          t.port p = (s.port p).answered s.ms 0x50 seq .ok (u16 t.btu.rev ++ t.btu.header s.rc.berthIn 1 0) ∧
          s.othersTold t p .berth t.btu.rev ∧ t.rsc = (s.enqueue ⟨.berth, 0⟩).rsc ∧
          t = { s with btu := t.btu, ports := t.ports, rsc := t.rsc })))) ∧
  ∀ (p : Port) (seq : Byte) (body : List Byte) (rev : Nat) (ts : List Nat) (s : State),
    s.accepts .amendPlan p → parseAmend body = some (rev, ts) →
    let refused (code : Code) (y : List Byte) : Prop :=
      exec (.amendPlan p seq body) s = .next (s.answeredAt .amendPlan p seq code y)
    (¬(rev = 0 ∨ rev = s.btu.rev) → refused .stale (u16 s.btu.rev)) ∧
    ((rev = 0 ∨ rev = s.btu.rev) →
      (s.btu.state ≠ .planned → refused .badState []) ∧
      (s.btu.state = .planned →
        let passes := ts.length = s.btu.holds.length ∧ ts.sum ≤ s.btu.ceiling ∧
          ∀ (k : Nat) (x : Nat) (h : BargeHold), ts[k]? = some x → s.btu.holds[k]? = some h → h.loaded ≤ x
        (¬passes → refused .range []) ∧
        (passes → ts = s.btu.holds.map (·.target) →
          exec (.amendPlan p seq body) s = .next (s.answeredAt .amendPlan p seq .ok s.berthAnswer)) ∧
        (passes → ts ≠ s.btu.holds.map (·.target) → ∃ t, exec (.amendPlan p seq body) s = .next t ∧
          t.btu = { s.btu with holds := List.zipWith (fun h x => { h with target := x }) s.btu.holds ts,
                               rev := nextRev s.btu.rev } ∧
          t.answers .amendPlan p seq .ok (u16 t.btu.rev ++ t.btu.header t.rc.berthIn 1 0) ∧
          ((∀ c ∈ s.rc.claims, ∀ y, c.state = .running y → y.dest ≠ .berth) →
            s.othersTold t p .berth t.btu.rev ∧ t.rsc = (s.enqueue ⟨.berth, 0⟩).rsc ∧
            t = { s with btu := t.btu, ports := t.ports, rsc := t.rsc }))))

/-- CLOSE BARGE ships the cargo, takes the manifest's references from the lots and retires those left with none. The
model's choices in it: log entry 16 (the header of an OK body shows first barge hold 1) and log entry 11 (a
counter that outgrows its 8 bytes). Basis: 09_barge_loading.md, section 9.5 (R165); 03_tickets_and_lots.md,
section 3.5 (R51, R52). -/
def Obligations.CloseBargeShipsTheCargo : Prop :=
  ∀ (p : Port) (seq : Byte) (body : List Byte) (rev : Nat) (s : State),
    s.accepts .closeBarge p → fields [2] body = some [rev] →
    let refused (code : Code) (y : List Byte) : Prop :=
      exec (.closeBarge p seq body) s = .next (s.answeredAt .closeBarge p seq code y)
    (¬(rev = 0 ∨ rev = s.btu.rev) → refused .stale (u16 s.btu.rev)) ∧
    ((rev = 0 ∨ rev = s.btu.rev) →
      (s.btu.state ≠ .planned → refused .badState []) ∧
      (∀ n, s.btu.state = .planned → s.rc.berthIn = some n → refused .busy []) ∧
      (s.btu.state = .planned → s.rc.berthIn = none → (s.tlr.lots.map (·.number)).Nodup →
        ∃ t, exec (.closeBarge p seq body) s = .next t ∧
          t.btu = { s.btu with state := .closedManifest, closeTime := s.term, rev := nextRev s.btu.rev } ∧
          t.inv = { s.inv with balance := { s.inv.balance with
            shipped := fitSigned64 (s.inv.balance.shipped + (s.btu.holds.map (·.loaded)).sum) } } ∧
          (∀ l ∈ s.tlr.lots,
            let k := (s.btu.holds.flatMap (·.lots)).count l.number
            t.lot l.number = if k = 0 then some l else if l.refs ≤ k then none
              else some { l with refs := l.refs - k, rev := nextRev l.rev }) ∧
          (∀ n, s.lot n = none → t.lot n = none) ∧
          t.answers .closeBarge p seq .ok (u16 t.btu.rev ++ t.btu.header none 1 0) ∧ s.linesKept t p ∧
          t = { s with btu := t.btu, inv := t.inv, tlr := { s.tlr with lots := t.tlr.lots }, ports := t.ports,
                       rsc := { s.rsc with queue := t.rsc.queue } }))

/-- REPORT STAGE stores the stage clamped to 0 to 3000 and FRESH, recomputing a PLANNED ceiling; after 1,800 s it
goes STALE and trips the loading. The model's choices in it: log entry 3 (the time an expiry leaves, 1 ms past
the 1,800 s) and log entry 16 (the header of an OK body shows first barge hold 1). Basis: 09_barge_loading.md,
section 9.2 (R157, R158, R159). -/
def Obligations.StagesSetTheCeilingAndGoStale : Prop :=
  (∀ (p : Port) (seq : Byte) (body : List Byte) (rev raw : Nat) (s : State),
    s.accepts .reportStage p → fields [2, 2] body = some [rev, raw] →
    (¬(rev = 0 ∨ rev = s.btu.rev) →
      exec (.reportStage p seq body) s = .next (s.answeredAt .reportStage p seq .stale (u16 s.btu.rev))) ∧
    ((rev = 0 ∨ rev = s.btu.rev) →
      let stage := if 0x8000 ≤ raw then 0 else min raw 3000
      let told : Btu := { s.btu with stage := some stage, stageTime := s.term, fresh := true, timer := some s.ms }
      ∃ t, exec (.reportStage p seq body) s = .next t ∧
        t.answers .reportStage p seq .ok (u16 t.btu.rev ++ t.btu.header t.rc.berthIn 1 0) ∧
        (s.btu.state ≠ .planned →
          let moved := s.btu.stage ≠ some stage ∨ s.btu.fresh = false
          t.btu = { told with rev := if moved then nextRev s.btu.rev else s.btu.rev } ∧
          (∀ q, q ≠ p → t.port q =
            if moved then (s.port q).endWatch .berth .changed (u16 t.btu.rev) else s.port q) ∧
          t.rsc = (s.enqueue ⟨.berth, 0⟩).rsc ∧ t = { s with btu := t.btu, ports := t.ports, rsc := t.rsc }) ∧
        (s.btu.state = .planned →
          let ceiling :=
            cargoCeiling s.berthCfg.datum s.berthCfg.clearance s.btu.hullMax s.btu.lightDraft s.btu.tpc stage
          let targets := s.btu.holds.map (·.target)
          let new := if ceiling < targets.sum then rescale ceiling (s.btu.holds.map fun h => (h.target, h.loaded)) else targets
          t.btu = { told with ceiling := ceiling, rev := t.btu.rev,
                              holds := List.zipWith (fun h x => { h with target := x }) s.btu.holds new } ∧
          (ceiling ≤ (s.btu.holds.map (·.loaded)).sum → (s.rc.claims.map (·.number)).Nodup →
            ∀ c ∈ t.rc.claims, ∀ y, c.state = .running y → y.dest ≠ .berth) ∧
          t.tlr = s.tlr ∧ t.inv.balance = s.inv.balance ∧ t.wbu = s.wbu ∧ t.cfg = s.cfg ∧ t.ms = s.ms))) ∧
  ∀ (s : State) (k : Nat), s.live = true → s.btu.fresh = true → s.btu.timer = some k →
    ∃ t, exec .stageStale s = .next t ∧ t.ms = max s.ms (k + 1800001) ∧
      t.btu = { s.btu with fresh := false, timer := none, rev := nextRev s.btu.rev } ∧
      (s.btu.state = .planned → (s.rc.claims.map (·.number)).Nodup →
        ∀ c ∈ t.rc.claims, ∀ y, c.state = .running y → y.dest ≠ .berth) ∧
      (s.btu.state ≠ .planned →
        let notice : Notice :=
          ⟨.stageStale, u16 (s.btu.stage.getD 0) ++ u32 s.btu.stageTime ++ u8 s.btu.state.code ++ [0]⟩
        (∀ q, t.port q = (if q = .dock ∨ q = .office then (s.port q).offer notice else s.port q).endWatch
          .berth .changed (u16 t.btu.rev)) ∧
        t.rsc = (s.enqueue ⟨.berth, 0⟩).rsc ∧ t = { s with btu := t.btu, ports := t.ports, rsc := t.rsc, ms := t.ms })

/-- A start-up goes on to the mirror when every area passes, else to CONFIG_FAULT; loading the mirror replaces bad
slots and ends READY and reconciled. The model's choices in it: log entry 9 (what judges a slot bad) and log
entry 19 (the subject of a bad ticket or lot slot). Basis: 10_retained_store_and_start_up.md, section 10.1
(R168); 10_retained_store_and_start_up.md, section 10.3 (R175, R176); 05_bins_and_layers.md, section 5.10 (R95,
R96); 08_grain_condition_and_rotation.md, section 8.10 (R153); 07_drying.md, section 7.6 (R133);
03_tickets_and_lots.md, section 3.6 (R54); 09_barge_loading.md, section 9.6 (R167). -/
def Obligations.StartUpLoadsTheStoreAndBecomesReady : Prop :=
  (∀ s : State, s.phase = .loadConfig → ∃ t, exec .configurationLoaded s = .next t ∧
    t.cfg = s.rsc.store.config ∧ t.rsc.store = s.rsc.store ∧ t.ms = s.ms ∧ t.pending = s.pending ∧ t.tlr = s.tlr ∧
    (t.cfg.complete = true → t.phase = .loadMirror) ∧ (t.cfg.complete = false → t.phase = .configFault) ∧
    (sumBytes (s.rsc.store.slice 0 49) ≠ 0 → t.cfg = Cfg.none ∧ t.phase = .configFault)) ∧
  ∀ s : State, s.phase = .loadMirror → ∃ t, exec .mirrorLoaded s = .next t ∧
    t.phase = .ready ∧ t.cdm.pollDue = some s.ms ∧ t.ms = s.ms ∧ t.rsc.store = s.rsc.store ∧ t.cfg = s.cfg ∧
    t.pending = s.pending ∧ (∀ b ∈ t.dru.batches, b.state ≠ .filling) ∧ t.cdm.survey = none ∧ t.rc.running = [] ∧
    (∀ i, (t.cond i).order ≠ .inProgress) ∧ (∀ i, (t.bin i).level = (t.cond i).level) ∧
    (t.inv.balance.isOpen = false → t.imbalance = 0) ∧
    (s.rc.claims = [] → s.tlr.tickets = [] → s.tlr.lots = [] → s.evr.held = [] →
      let m := s.rsc.store
      let faulted (k : SlotKind) (x : Subject) : Prop := t.evr.ring.length < 64 →
        ∃ e ∈ t.evr.ring, e.time = s.term ∧ e.kind = .mirrorFault ∧ e.subject = x ∧ e.value = (k.code : Int)
      let opened : Prop := t.inv.balance.isOpen = true
      (m.judge ⟨.ring, 0⟩ Parse.ring = .bad → faulted .ring (.slot 0) ∧
        (t.evr.ring.length < 64 → ∃ e, t.evr.ring.head? = some e ∧ e.kind = .mirrorFault ∧
          (∀ r c k, m.judge ⟨.counters, 0⟩ Parse.counters = .record r (c, k) → k + 1 < 2 ^ 32 → e.seq = k + 1) ∧
          (m.judge ⟨.counters, 0⟩ Parse.counters = .bad → e.seq = 1))) ∧
      (m.judge ⟨.counters, 0⟩ Parse.counters = .bad → faulted .counters (.slot 0) ∧
        t.tlr.counter = (t.tlr.tickets.map (·.number) ++ t.tlr.lots.map (·.number)).foldl max 0) ∧
      (m.judge ⟨.balance, 0⟩ Parse.balance = .bad → faulted .balance (.slot 0) ∧
        t.inv.balance = { Balance.created with isOpen := true }) ∧
      (∀ i : PitIx, m.judge ⟨.pit, i⟩ Parse.pit = .bad → faulted .pit (.location (i.val + 29)) ∧ opened ∧
        (t.pit i).state ≠ .loaded ∧ t.pit i = { PitRec.created (s.pit i).capacity with
          unverified := true, state := (t.pit i).state, rev := (t.pit i).rev }) ∧
      (∀ i : BinIx, m.judge ⟨.bin, i⟩ Parse.bin = .bad → faulted .bin (.location (i.val + 1)) ∧ opened ∧
        t.bin i = { BinRec.created (s.bin i).kind (s.bin i).capacity with
          unverified := true, hold := some ⟨.standard, .office⟩ }) ∧
      (∀ k, k < 12 → m.judge ⟨.ticket, k⟩ Parse.ticket = .bad → faulted .ticket (.slot k) ∧
        ∀ x ∈ t.tlr.tickets, x.pos ≠ k) ∧
      (∀ k, k < 400 → m.judge ⟨.lot, k⟩ Parse.lot = .bad → faulted .lot (.slot k) ∧
        ∀ l ∈ t.tlr.lots, l.pos = k → l.damaged = true ∧ l.net = 0) ∧
      (m.judge ⟨.batchList, 0⟩ Parse.dru = .bad →
        faulted .batchList (.location 31) ∧ opened ∧ t.dru = Dru.created) ∧
      (m.judge ⟨.berth, 0⟩ Parse.btu = .bad →
        faulted .berth (.location 32) ∧ opened ∧ t.btu = Btu.created) ∧
      (∀ i : BinIx, m.judge ⟨.condition, i⟩ Parse.condition = .bad →
        faulted .condition (.location (i.val + 1)) ∧ t.cond i = BinCondition.start) ∧
      (m.judge ⟨.survey, 0⟩ Parse.survey = .bad →
        faulted .survey (.slot 0) ∧ t.cdm.log = [] ∧ t.cdm.surveyCtr = 0) ∧
      (m.judge ⟨.running, 0⟩ Parse.running = .bad → faulted .running (.slot 0) ∧
        ∀ e ∈ t.evr.ring, e.kind = .interrupted → ∃ r xs, m.judge ⟨.ring, 0⟩ Parse.ring = .record r xs ∧ e ∈ xs))

/-- READ CONFIGURATION AREA gives the stored bytes in every readiness state; WRITE CONFIGURATION AREA stages a chunk
in place and writes a whole area that checks. The model's choices in it: log entry 30 (a read waits for no
write, and a write begins at once when the bus is free) and log entry 16 (BAD_STATE goes before the lengths, a
refused chunk at offset 0 leaves the staging, and the bytes staged take 2 bytes). Basis:
10_retained_store_and_start_up.md, section 10.1 (R169, R170); 10_retained_store_and_start_up.md, section 10.2
(R173). -/
def Obligations.ConfigurationAreasAreReadStagedAndWritten : Prop :=
  (∀ phase : Phase, phase = .loadConfig ∨ phase = .loadMirror ∨ phase = .configFault ∨ phase = .ready →
    ReqKind.admittedIn .readConfigurationArea phase = true) ∧
  (∀ (p : Port) (seq : Byte) (body : List Byte) (n offset count : Nat) (s : State),
    s.accepts .readConfigurationArea p → fields [1, 2, 1] body = some [n, offset, count] →
    let answer (code : Code) (x : List Byte) : Prop :=
      exec (.readConfigurationArea p seq body) s = .next (s.answeredAt .readConfigurationArea p seq code x)
    let entry := areaEntry (s.rsc.store.slice 0 49) n
    let length := if n = 0 then 49 else entry.length
    let addr := if n = 0 then 0 else entry.addr
    ((8 < n ∨ count = 0 ∨ 200 < count ∨ length < offset + count) → answer .range []) ∧
    (∀ a : Fin 9, n = a.val → 1 ≤ count → count ≤ 200 → offset + count ≤ length →
      ∃ bytes, answer .ok ((match s.rsc.status[a] with | .good => [0] | .failed => [1] | .written => [2])
          ++ u16 length ++ bytes) ∧
        bytes.length = count ∧
        ∀ k, k < count → addr + offset + k < 0x20000 → bytes[k]? = some (s.rsc.store.read (addr + offset + k)))) ∧
  ∀ (p : Port) (seq : Byte) (n total offset : Nat) (chunk old : List Byte) (s : State),
    s.accepts .writeConfigurationArea p → n < 256 → total < 65536 → offset < 65536 → 1 ≤ chunk.length →
    chunk.length ≤ 200 →
    let c : Instr := .writeConfigurationArea p seq (u8 n ++ u16 total ++ u16 offset ++ chunk)
    let refused (code : Code) : Prop := exec c s = .next (s.answeredAt .writeConfigurationArea p seq code [])
    let header := s.rsc.store.slice 0 49
    let entry := areaEntry header n
    let continues := (offset = 0 ∧ old = []) ∨ (s.rsc.staging = some ⟨n, total, old⟩ ∧ old.length = offset)
    let fits := (n = 0 ∧ total = 49) ∨ (n ≠ 0 ∧ 1 ≤ total ∧ total ≤ entry.room)
    let whole := old ++ chunk
    (8 < n → refused .range) ∧
    (1 ≤ n → n ≤ 8 → sumBytes header ≠ 0 → refused .badState) ∧
    ∀ a : Fin 9, n = a.val → (n = 0 ∨ sumBytes header = 0) →
      (¬(fits ∧ offset + chunk.length ≤ total) → refused .range) ∧
      (fits → offset ≠ 0 → (∀ x, s.rsc.staging = some x → ¬(x.area = n ∧ x.total = total ∧ x.bytes.length = offset)) →
        refused .range) ∧
      (fits → offset + chunk.length ≤ total → continues →
        (whole.length < total → exec c s = .next
          ({ s with rsc := { s.rsc with staging := some ⟨n, total, whole⟩ } }.answeredAt .writeConfigurationArea p seq .ok
            (u16 whole.length))) ∧
        (whole.length = total → sumBytes whole ≠ 0 → refused .range) ∧
        (whole.length = total → sumBytes whole = 0 → s.rsc.write = none → s.rsc.jobs = [] →
          let addr := if n = 0 then 0 else entry.addr
          exec c s = .next
            { (s.modPort p fun q =>
                { q with receiver := .hunting, silent := false, timer := some s.ms, slot := .acting seq 0x5A })
              with rsc := { s.rsc with
                staging := some ⟨n, total, whole⟩, write := some ⟨.config, addr, whole, s.ms⟩,
                jobs := [⟨some p, a, total, if n = 0 then [] else [.header total]⟩] } }))

/-- A store write changes its own bytes and no other; one abandoned changes none outside its range, and is tried
again or answered BUSY. The model's choices in it: log entries 3 and 30 (the time a limit leaves, when the bytes
stand, what re-arms the fault event), 10 and 12 (what a cut-off write and an address past the store leave) and
16 (the final answer gives the bytes staged, in 2 bytes). Basis: 10_retained_store_and_start_up.md, section 10.2
(R173, R174); 10_retained_store_and_start_up.md, section 10.1 (R169). -/
def Obligations.StoreWritesChangeOnlyTheirBytes : Prop :=
  (∀ a, a < 0x20000 → storePlace a = some a) ∧
  (∀ (m : Store) (a : Fin 9) (bytes : List Byte) (length : Nat),
    let old := m.slice 0 49
    let new := (m.configWrite a (.header length)).2
    m.configWrite a (.content bytes) = (if a = 0 then 0 else (areaEntry old a).addr, bytes) ∧
    (m.configWrite a (.header length)).1 = 0 ∧
    (a ≠ 0 → new.length = 49 ∧ sumBytes new = 0 ∧ (new.drop (6 * a.val - 2)).take 2 = u16 length ∧
      ∀ k, k < 48 → k ≠ 6 * a.val - 2 → k ≠ 6 * a.val - 1 → new[k]? = old[k]?)) ∧
  ∀ (s : State), s.live = true → s.rsc.store.wf = true →
    (∀ id rest, s.rsc.write = none → s.rsc.jobs = [] → s.rsc.queue = id :: rest →
      exec .mirrorWriteStart s = .next { s with rsc := { s.rsc with
        queue := rest, write := some ⟨.mirror id, id.addr, s.slotBytes id, s.ms⟩ } }) ∧
    ∀ w : StoreWrite, s.rsc.write = some w →
      let inside (a : Nat) : Prop := ∃ k, k < w.bytes.length ∧ storePlace (w.addr + k) = some a
      let outsideKept (t : State) : Prop := ∀ a, ¬inside a → t.rsc.store.read a = s.rsc.store.read a
      exec .mirrorWriteStart s = .next s ∧
      (∀ st : Byte, st.toNat % 2 = 1 → exec (.storeStatusPoll st) s = .next s) ∧
      (∀ st : Byte, st.toNat % 2 = 0 → ∃ t, exec (.storeStatusPoll st) s = .next t ∧
        outsideKept t ∧
        (w.addr + w.bytes.length ≤ 0x20000 → ∀ k b, w.bytes[k]? = some b → t.rsc.store.read (w.addr + k) = b) ∧
        (∀ id, w.target = .mirror id → s.rsc.jobs = [] →
          t = { s with rsc := { s.rsc with store := t.rsc.store, write := none, faultLogged := false } }) ∧
        (∀ j q, w.target = .config → s.rsc.jobs = [j] → j.todo = [] → j.port = some q →
          t = { s.modPort q (SlpPort.reply .ok (u16 j.staged)) with rsc := { s.rsc with
            store := t.rsc.store, write := none, jobs := [], status := s.rsc.status.set j.area .written } }) ∧
        (∀ j x rest js, w.target = .config → s.rsc.jobs = j :: js → j.todo = x :: rest →
          let next := t.rsc.store.configWrite j.area x
          t = { s with rsc := { s.rsc with store := t.rsc.store, jobs := { j with todo := rest } :: js,
                                           write := some ⟨.config, next.1, next.2, s.ms⟩ } })) ∧
      (∀ left id, w.target = .mirror id → ∃ t, exec (.mirrorWriteTimeout left) s = .next t ∧
        outsideKept t ∧ t.ms = max s.ms (w.began + 100) ∧ t.rsc.faultLogged = true ∧
        (s.rsc.accepting = true → id ∈ t.rsc.queue) ∧
        (s.rsc.jobs = [] → t.rsc.write = none) ∧
        (s.rsc.faultLogged = true → t.evr = s.evr) ∧
        (s.rsc.faultLogged = false → t.evr = ({ s with ms := t.ms }.logEvent .mirrorFault .none 1).evr) ∧
        t = { s with rsc := t.rsc, evr := t.evr, ms := t.ms }) ∧
      (∀ left j q, w.target = .config → s.rsc.jobs = [j] → j.port = some q →
        ∃ t, exec (.configWriteTimeout left) s = .next t ∧ outsideKept t ∧ t.ms = max s.ms (w.began + 100) ∧
          t = { s.modPort q (SlpPort.reply .busy []) with ms := t.ms, rsc := { s.rsc with
            store := t.rsc.store, write := none, jobs := [], staging := none,
            status := s.rsc.status.set j.area .written } })

/-- Power loss, RESET_N and RESTART bring every permit low and keep every store byte no write was changing; a
RESTART writes the queue out once. The model's choices in it: log entries 10 and 12 (what a cut-off write and an
address past the store leave), 29 (without power and in RESET_N), 40 (the claims' deletion is reported), 48
(configuration writes go on), 51 (held events are lost), 3 and 30 (the time a limit leaves, when the bytes
stand, what re-arms the fault event) and 16 (the final answer gives the bytes staged, in 2 bytes). Basis:
10_retained_store_and_start_up.md, section 10.2 (R173); 10_retained_store_and_start_up.md, section 10.3 (R175);
10_retained_store_and_start_up.md, section 10.1 (R169); 06_routes_claims_and_transfers.md, section 6.9 (R120);
06_routes_claims_and_transfers.md, section 6.1 (R97); 06_routes_claims_and_transfers.md, section 6.3 (R101);
01_station_links.md, section 1.7 (R10, R14). -/
def Obligations.PowerResetAndRestartKeepTheStore : Prop :=
  (∀ (s t : State) (left : List Byte), s.rsc.store.wf = true →
    (exec (.powerLoss left) s = .next t ∧ s.phase ≠ .off) ∨
      (exec (.resetNAsserted left) s = .next t ∧ s.phase ≠ .off ∧ s.phase ≠ .resetHeld) →
    (∀ i, (t.seg i).permit = false) ∧ t.rc.claims = [] ∧ (∀ p, t.hears p = false) ∧ t.pending = s.pending ∧
    (s.rsc.write = none → t.rsc.store = s.rsc.store) ∧
    ∀ w a, s.rsc.write = some w → (∀ k, k < w.bytes.length → storePlace (w.addr + k) ≠ some a) →
      t.rsc.store.read a = s.rsc.store.read a) ∧
  (∀ (s : State) (left : List Byte), s.phase ≠ .off →
    ∃ t, exec (.powerLoss left) s = .next t ∧ t.phase = .off) ∧
  (∀ (s : State) (left : List Byte), s.phase ≠ .off → s.phase ≠ .resetHeld →
    ∃ t, exec (.resetNAsserted left) s = .next t ∧ t.phase = .resetHeld) ∧
  (∀ (p : Port) (seq : Byte) (s : State), s.accepts .restart p →
    exec (.restart p seq []) s = .next (s.answeredAt .restart p seq .ok [])) ∧
  (∀ (p : Port) (s : State) (f : List Byte) (a : Answer) (b : Option Answer), s.live = true →
    (s.port p).tx = some (.answer f) → (s.port p).slot = .answering a b → a.kind = 0x59 → a.code = .ok →
    (s.rsc.write = none → s.rsc.jobs = [] → s.rsc.queue = [] →
      exec (.answerSent p) s = .next (State.startUp s.rsc.store s.pending)) ∧
    (¬(s.rsc.write = none ∧ s.rsc.jobs = [] ∧ s.rsc.queue = []) → ∃ t, exec (.answerSent p) s = .next t ∧
      t.phase = .restarting ∧ t.rc.claims = [] ∧ (∀ i, (t.seg i).permit = false) ∧
      (∀ i n, (s.seg i).state = .held n →
        t.seg i = { s.seg i with state := .free, permit := false, rev := nextRev (s.seg i).rev }) ∧
      (∀ i, (∀ n, (s.seg i).state ≠ .held n) → (s.seg i).permit = false → t.seg i = s.seg i) ∧
      (∀ q k w, q ≠ p → (s.port q).slot = .parked k w →
        (∀ i n, w.subject = .segment i → (s.seg i).state = .held n → t.port q
          = { s.port q with slot := .answering ⟨k, 0x03, .changed, u16 (nextRev (s.seg i).rev)⟩ none }) ∧
        (∀ n, w.subject = .claim n → (s.claim n).isSome →
          t.port q = { s.port q with slot := .answering ⟨k, 0x03, .gone, []⟩ none })) ∧
      (∀ q, q ≠ p → (∀ k w, (s.port q).slot = .parked k w →
          (∀ i, w.subject = .segment i → (∀ n, (s.seg i).state ≠ .held n) ∧ (s.seg i).permit = false) ∧
          ∀ n, w.subject = .claim n → s.claim n = none) → t.port q = s.port q) ∧
      t.port p = { s.port p with tx := none, slot := match b with | some x => .answering x none | none => .empty } ∧
      (∀ q, t.hears q = false) ∧
      t = { s with phase := t.phase, ports := t.ports,
                   rc := { s.rc with claims := [], segments := t.rc.segments } })) ∧
  ∀ s : State, s.phase = .restarting → s.rsc.store.wf = true →
    (∀ id rest, s.rsc.write = none → s.rsc.jobs = [] → s.rsc.queue = id :: rest →
      exec .mirrorWriteStart s = .next { s with rsc := { s.rsc with
        queue := rest, write := some ⟨.mirror id, id.addr, s.slotBytes id, s.ms⟩ } }) ∧
    ∀ w : StoreWrite, s.rsc.write = some w →
      let kept (m : Store) : Prop := ∀ a, (¬∃ k, k < w.bytes.length ∧ storePlace (w.addr + k) = some a) →
        m.read a = s.rsc.store.read a
      let stands (m : Store) : Prop :=
        w.addr + w.bytes.length ≤ 0x20000 → ∀ k b, w.bytes[k]? = some b → m.read (w.addr + k) = b
      let goesOn (u : State) : State := if s.rsc.queue = [] then State.startUp u.rsc.store s.pending else u
      let later := max s.ms (w.began + 100)
      (∀ x : Byte, x.toNat % 2 = 1 → exec (.storeStatusPoll x) s = .next s) ∧
      (∀ id, w.target = .mirror id → s.rsc.jobs = [] →
        (∀ x : Byte, x.toNat % 2 = 0 → ∃ m, kept m ∧ stands m ∧ exec (.storeStatusPoll x) s
          = .next (goesOn { s with rsc := { s.rsc with store := m, write := none, faultLogged := false } })) ∧
        ∀ left, ∃ m, kept m ∧ exec (.mirrorWriteTimeout left) s
          = .next (goesOn { s with ms := later, rsc := { s.rsc with store := m, write := none } })) ∧
      (∀ j q, w.target = .config → s.rsc.jobs = [j] → j.port = some q →
        let ended (code : Code) (body : List Byte) (m : Store) : State := { s.modPort q (SlpPort.reply code body) with
          rsc := { s.rsc with store := m, write := none, jobs := [], status := s.rsc.status.set j.area .written } }
        (∀ x : Byte, x.toNat % 2 = 0 → j.todo = [] → ∃ m, kept m ∧ stands m ∧ exec (.storeStatusPoll x) s
          = .next (goesOn (ended .ok (u16 j.staged) m))) ∧
        ∀ left, ∃ m, kept m ∧ exec (.configWriteTimeout left) s = .next (goesOn
          { ended .busy [] m with ms := later, rsc := { (ended .busy [] m).rsc with staging := none } })) ∧
      (∀ (x : Byte) j y rest js, x.toNat % 2 = 0 → w.target = .config → s.rsc.jobs = j :: js → j.todo = y :: rest →
        ∃ m, kept m ∧ stands m ∧
          let next := m.configWrite j.area y
          exec (.storeStatusPoll x) s = .next { s with rsc := { s.rsc with
            store := m, jobs := { j with todo := rest } :: js, write := some ⟨.config, next.1, next.2, s.ms⟩ } })

/-- A lot written to any of the 400 lot slots of the mirror is judged there as that lot, whatever else the store
holds. The model's choices in it: log entry 9 (the layout of the slot body and what judges a slot). Basis:
10_retained_store_and_start_up.md, section 10.2 (R171, R172); 03_tickets_and_lots.md, section 3.3 (R47). -/
def Obligations.ALotComesBackFromItsMirrorSlot : Prop :=
  (∀ (m : Store) (pos rev : Nat) (l : Lot), m.wf = true → pos < 400 → 1 ≤ rev → rev ≤ 65535 →
    1 ≤ l.number → l.number ≤ 65535 → l.commodity ≤ 7 → l.grade ≤ 5 → (l.damaged = false → 1 ≤ l.grade) →
    l.net < 2 ^ 32 → l.moisture ≤ 350 → l.standard < 2 ^ 32 → l.waterShrink < 2 ^ 32 → l.handlingShrink < 2 ^ 32 →
    l.intakeTime < 2 ^ 32 → l.refs ≤ 400 →
    let id : SlotId := ⟨.lot, pos⟩
    (m.write id.addr (slotImage .lot l.number 1 rev l.mirror)).judge id Parse.lot
      = .record rev { l with pos := 0, rev := 1 }) ∧
  ∀ (m : Store) (x y : Nat) (bytes : List Byte), m.wf = true → x < 400 → y < 400 → x ≠ y → bytes.length ≤ 64 →
    (m.write (SlotId.addr ⟨.lot, x⟩) bytes).slot ⟨.lot, y⟩ = m.slot ⟨.lot, y⟩

/-- SET CLOCK takes any time but 0 and moves no timer; terminal time is 0 until then and advances with each second
after. The model's choices in it: log entry 27 (terminal seconds are the monotonic seconds begun since SET
CLOCK). Basis: 10_retained_store_and_start_up.md, section 10.4 (R177). -/
def Obligations.SetClockSetsTerminalTimeAlone : Prop :=
  (∀ (p : Port) (seq : Byte) (body : List Byte) (value : Nat) (s : State),
    s.accepts .setClock p → fields [4] body = some [value] →
    (value = 0 → exec (.setClock p seq body) s = .next (s.answeredAt .setClock p seq .range [])) ∧
    (value ≠ 0 → exec (.setClock p seq body) s
      = .next ({ s with clock := some ⟨value, s.ms / 1000⟩ }.answeredAt .setClock p seq .ok (u32 s.term ++ u32 value)))) ∧
  ∀ s : State,
    (s.clock = none → s.term = 0) ∧
    (∀ value start, s.clock = some ⟨value, start⟩ → value + (s.ms / 1000 - start) < 2 ^ 32 →
      s.term = value + (s.ms / 1000 - start))

/-- An increment's parts join the open layer, open a new top layer or merge at twelve, feed the FILLING batch or a
new one, or load the barge hold. Basis: 05_bins_and_layers.md, section 5.3 (R79, R80); 07_drying.md, section 7.2
(R126); 09_barge_loading.md, section 9.2 (R159); 09_barge_loading.md, section 9.4 (R163, R164);
04_mass_moisture_and_draft_arithmetic.md, section 4.4 (R59, R60). -/
def Obligations.IncrementsEnterBinsBatchesAndBargeHolds : Prop :=
  ∀ (s : State) (ps : List Part), ps ≠ [] →
    let arrived := ps.flatMap (·.lots)
    let moved := (ps.map (·.mass)).sum
    let sum := (ps.map fun q => q.mass * q.moisture).sum
    let worst (grade : Nat) : Nat := (ps.map (·.grade)).foldl max grade
    let entered (room : Nat) (held : List Nat) : List Nat :=
      arrived.foldl (fun h n => if n ∈ h ∨ room ≤ h.length then h else h ++ [n]) held
    let doubt (room : Nat) (held : List Nat) : Bool :=
      (ps.any fun q => q.untraced) || arrived.any fun n => !(entered room held).contains n
    let booked (e : Ev) (room : Nat) (held : List Nat) : Prop :=
      (∀ r ∈ e.rels, r.2 = .dropped ∧ r.1 ∈ arrived ∧ r.1 ∉ entered room held) ∧ (∀ n ∈ e.adds, n ∈ arrived) ∧
      (∀ n ∈ arrived, n ∉ held → n ∈ e.adds) ∧
      ∀ n, e.adds.count n
        = (e.rels.map (·.1)).count n + if n ∈ arrived ∧ n ∉ held ∧ n ∈ entered room held then 1 else 0
    let grown (l : Layer) : Layer :=
      { l with mass := l.mass + moved, grade := worst l.grade, lots := entered 6 l.lots,
               moisture := (2 * (l.mass * l.moisture + sum) + (l.mass + moved)) / (2 * (l.mass + moved)),
               untraced := l.untraced || doubt 6 l.lots }
    let fed (b : Batch) : Batch :=
      { b with inMass := b.inMass + moved, inSum := b.inSum + sum, grade := worst b.grade, lots := entered 6 b.lots,
               untraced := b.untraced || doubt 6 b.lots }
    (∀ (i : BinIx) (n : Nat) (opened : Option Nat) (origin : Origin), ((s.bin i).layers.map (·.number)).Nodup →
      let b := s.bin i
      let e := (Ev.start s).fillBin i n opened origin ps
      let t := e.commit.st
      let into (l : Layer) : Prop :=
        booked e 6 l.lots ∧
        (∀ c x, s.claim n = some c → c.transfer = some x →
          ∃ d z, t.claim n = some d ∧ d.transfer = some z ∧ z.openLayer = some l.number)
      (∀ xs l ys, opened = some l.number → b.layers = xs ++ l :: ys →
        (t.bin i).layers = xs ++ grown l :: ys ∧ (t.bin i).layerCtr = b.layerCtr ∧ into l) ∧
      ((∀ k, opened = some k → k ∉ b.layers.map (·.number)) →
        (b.layers.length < 12 → ∃ k, 1 ≤ k ∧ k ≤ 65535 ∧ k ∉ b.layers.map (·.number) ∧
          let l : Layer := ⟨k, 0, 0, 0, origin, s.term, [], false⟩
          (t.bin i).layers = b.layers ++ [grown l] ∧ (t.bin i).layerCtr = k ∧ into l) ∧
        (∀ xs l, 12 ≤ b.layers.length → b.layers = xs ++ [l] →
          (t.bin i).layers = xs ++ [grown l] ∧ (t.bin i).layerCtr = b.layerCtr ∧ into l)) ∧
      (t.bin i).commodity = (if b.layers = [] then ps.head?.map (·.commodity) else b.commodity) ∧
      (∀ j, j ≠ i → (t.bin j).layers = (s.bin j).layers) ∧ (∀ j, (t.pit j).layer = (s.pit j).layer) ∧
      t.dru.batches = s.dru.batches ∧ t.btu.holds = s.btu.holds ∧ t.tlr = s.tlr ∧ t.inv.balance = s.inv.balance) ∧
    ((s.dru.batches.filter fun b => b.state == .filling).length ≤ 1 → s.dru.batches.length < 65535 →
      let e := (Ev.start s).feedDryer ps
      let t := e.commit.st
      (∀ xs b ys, s.dru.batches = xs ++ b :: ys → b.state = .filling →
        t.dru.batches = xs ++ fed b :: ys ∧ t.dru.counter = s.dru.counter ∧ booked e 6 b.lots) ∧
      ((∀ b ∈ s.dru.batches, b.state ≠ .filling) → ∃ k, 1 ≤ k ∧ k ≤ 65535 ∧ k ∉ s.dru.batches.map (·.number) ∧
        let b : Batch := ⟨k, .filling, 0, 0, 0, [], false, 0, 0, 0, false, s.term, 0, 0⟩
        t.dru.batches = s.dru.batches ++ [fed b] ∧ t.dru.counter = k ∧ booked e 6 []) ∧
      t.dru.commodity = (if s.dru.batches = [] then ps.head?.map (·.commodity) else s.dru.commodity) ∧
      t = { s with dru := t.dru, ports := t.ports, rsc := { s.rsc with queue := t.rsc.queue } }) ∧
    ∀ (k : Nat) (h : BargeHold), s.btu.holds[k - 1]? = some h →
      let e := (Ev.start s).loadBarge k ps
      let t := e.commit.st
      let taken : BargeHold :=
        { h with loaded := h.loaded + moved, sum := h.sum + sum, grade := some (worst (h.grade.getD 0)),
                 lots := entered 16 h.lots, untraced := h.untraced || doubt 16 h.lots,
                 target := max h.target (h.loaded + moved) }
      let holds := s.btu.holds.set (k - 1) taken
      let new := if s.btu.ceiling < (holds.map (·.target)).sum
        then rescale s.btu.ceiling (holds.map fun h => (h.target, h.loaded)) else holds.map (·.target)
      t.btu = { s.btu with holds := List.zipWith (fun h x => { h with target := x }) holds new, rev := t.btu.rev } ∧
      booked e 16 h.lots ∧
      (s.btu.ceiling ≤ (holds.map (·.loaded)).sum → (s.rc.claims.map (·.number)).Nodup →
        ∀ c ∈ t.rc.claims, ∀ x, c.state = .running x → x.dest ≠ .berth) ∧
      (∀ i, (t.bin i).layers = (s.bin i).layers) ∧ (∀ i, (t.pit i).layer = (s.pit i).layer) ∧
      t.dru.batches = s.dru.batches ∧ t.tlr = s.tlr ∧ t.inv.balance = s.inv.balance

/-- A formation takes the four raw values from the effective codes and the bottom layer, keeps what has no data, and
sets the level the attributes call for. The model's choices in it: log entry 35 (the normalised value of an
attribute whose full value is not above its start) and log entry 22 (a change of the bottom layer enters the
worst values of the held attributes). Basis: 08_grain_condition_and_rotation.md, section 8.4 (R140);
08_grain_condition_and_rotation.md, section 8.5 (R141, R142); 08_grain_condition_and_rotation.md, section 8.6
(R143); 04_mass_moisture_and_draft_arithmetic.md, section 4.10 (R69, R70). -/
def Obligations.FormationsSetTheAttributesAndTheLevel : Prop :=
  ∀ (i : BinIx) (s : State),
    let old := s.cond i
    let a := s.attrCfg
    let code (x : Point) : Byte := match x.good with
      | none => 0x80
      | some g => if 600000 < s.ms - g then 0x80 else x.code
    let temp (x : Point) : Option Int :=
      if (code x).toNat ≤ 0x7F then some (code x).toNat
      else if 0xC4 ≤ (code x).toNat then some (((code x).toNat : Int) - 256) else none
    let points := (s.cdm.nodes.filter fun n => n.bin == i).flatMap fun n => n.points.toList
    let temps := points.filterMap temp
    let rises := points.filterMap fun x => (temp x).map fun k => k - x.ref.getD k
    let greatest (xs : List Int) (x : Int) : Prop := x ∈ xs ∧ ∀ y ∈ xs, y ≤ x
    let formed (c : AttrConfig) (v : AttrValue) (raw : Int) : AttrValue :=
      let norm := if raw ≤ c.start then 100 else if c.full ≤ raw then 1
        else 100 - (99 * (raw - c.start) / (c.full - c.start)).toNat
      ⟨raw, norm, min v.worst norm⟩
    let kept (v : AttrValue) : AttrValue := { v with worst := min v.worst v.norm }
    let age (l : Layer) : Nat :=
      if s.clock = none ∨ l.fillTime = 0 ∨ s.term < l.fillTime then 0 else (s.term - l.fillTime) / 86400
    let calls (b : BinCondition) (k : AttrClass) : Prop :=
      ∃ x ∈ [(a.hottest, b.hottest), (a.rise, b.rise), (a.age, b.age), (a.failed, b.failed)],
        x.1.cls = k ∧ x.1.start < x.1.full ∧ 1 ≤ x.1.threshold ∧ x.1.threshold ≤ 99 ∧ x.2.norm ≤ x.1.threshold
    let judged (t : State) : Prop :=
      let new := t.cond i
      (calls new .critical → new.level = .critical) ∧
      (¬calls new .critical → calls new .advisory → new.level = .advisory) ∧
      (¬calls new .critical → ¬calls new .advisory → new.level = .normal) ∧
      (new.level ≠ old.level → (t.bin i).level = new.level ∧ new.savedHottest = new.hottest.norm ∧
        new.savedRise = new.rise.norm) ∧ (∀ j, j ≠ i → t.cond j = s.cond j) ∧
      (new.level = old.level → new.order = old.order ∧ new.outbound = old.outbound ∧
        new.savedHottest = old.savedHottest ∧ new.savedRise = old.savedRise ∧
        t = { s with cdm := { s.cdm with bins := t.cdm.bins, nodes := t.cdm.nodes } })
    ((s.bin i).layers = [] → s.event (·.formBin i) = s) ∧
    ∀ l ls, (s.bin i).layers = l :: ls →
      (let t := s.event (·.formBin i)
       let new := t.cond i
       (∀ hot rise, greatest temps hot → greatest rises rise →
         new.hottest = formed a.hottest old.hottest hot ∧
         new.rise = formed a.rise old.rise (max (-128) (min 127 rise)) ∧ new.noData = false) ∧
       (temps = [] → new.hottest = kept old.hottest ∧ new.rise = kept old.rise ∧ new.noData = true) ∧
       new.age = formed a.age old.age (age l) ∧
       new.failed = formed a.failed old.failed (points.filter fun x => code x == 0x81).length ∧
       t.cdm.nodes = (s.cdm.nodes.map fun n =>
         if n.bin = i then { n with points := n.points.map fun x => { x with ref := x.ref.or (temp x) } } else n) ∧
       judged t) ∧
      (let t := s.event (·.bottomChanged i)
       let new := t.cond i
       new.hottest = kept old.hottest ∧ new.rise = kept old.rise ∧ new.failed = kept old.failed ∧
       new.age = formed a.age old.age (age l) ∧
       (new.noData = true ↔ old.noData = true ∨ ∀ n ∈ s.cdm.nodes, n.bin ≠ i) ∧
       t.cdm.nodes = s.cdm.nodes ∧ judged t)

/-- A change of level is told, logged, trips HOT and issues an order; a start, a close and an empty bin move the
order, the references and the worst values. The model's choices in it: log entry 9 (the layout of the slot), log
entry 36 (at an emptied bin the CONDITION notice shows the figures before their reset), log entry 43 (its
condition record takes those after it) and log entry 28 (where the TRIPs stand among the events of one change of
level). Basis: 08_grain_condition_and_rotation.md, section 8.6 (R144); 08_grain_condition_and_rotation.md,
section 8.7 (R145, R146, R147); 08_grain_condition_and_rotation.md, section 8.10 (R153);
06_routes_claims_and_transfers.md, section 6.7 (R112). -/
def Obligations.LevelsOrdersAndReferencesFollowTheirEvents : Prop :=
  ∀ (i : BinIx) (s : State), (s.rc.claims.map (·.number)).Nodup →
    let old := s.cond i
    let a := s.attrCfg
    let entry (c : AttrConfig) (v : AttrValue) : List Byte :=
      let sound := c.start < c.full ∧ 1 ≤ c.threshold ∧ c.threshold ≤ 99
      let cls := if sound then (match c.cls with | .off => 0 | .advisory => 1 | .critical => 2) else 0
      beInt 2 (min v.raw 32767) ++ u8 v.norm ++ u8 v.worst ++ u8 (cls + if v.norm ≤ c.threshold then 128 else 0)
    let condition (level : Level) : Notice :=
      ⟨.condition, u8 (i.val + 1) ++ u8 old.level.code ++ u8 level.code ++ u8 (if old.noData then 1 else 0) ++
        entry a.hottest old.hottest ++ entry a.rise old.rise ++ entry a.age old.age ++ entry a.failed old.failed⟩
    let rotation (o : Order) (cause transfer mass : Nat) : Notice :=
      ⟨.rotationOrder, u8 (i.val + 1) ++ u8 o.code ++ u8 cause ++ u16 transfer ++ u32 mass⟩
    let ordered (q : Port) (x : SlpPort) (o : Order) (cause transfer mass : Nat) : SlpPort :=
      if o = old.order then x
      else if q = .yard ∨ q = .office then x.offer (rotation o cause transfer mass) else x
    let othersKept (t : State) : Prop := ∀ j, j ≠ i → t.cond j = s.cond j
    let saved (moved : Bool) (b : BinCondition) : BinCondition :=
      if moved then { b with savedHottest := b.hottest.norm, savedRise := b.rise.norm } else b
    let rereferenced (f : Point → Point) (t : State) : Prop :=
      t.cdm.nodes = s.cdm.nodes.map fun n => if n.bin = i then { n with points := n.points.map f } else n
    s.slotBytes ⟨.condition, i⟩ = slotImage .condition (i.val + 1) 1 0
      (u8 old.level.code ++ u8 old.order.code ++ u8 old.savedHottest ++ u8 old.savedRise) ∧
    s.event (·.setLevel i old.level) = s ∧
    (∀ level, level ≠ old.level →
      let t := s.event (·.setLevel i level)
      let issues := (level = .critical ∨ (level = .advisory ∧ a.actOnAdvisory = true)) ∧ old.order = .none
      let order : Order := if issues then (if old.outbound.isSome then .inProgress else .ordered) else old.order
      let cause := if level = .critical then 1 else 2
      let trips := if level = .critical then
        (s.rc.claims.filterMap Claim.runningTransfer).filter fun x => x.dest == .bin i && x.source != .bin i else []
      let told := trips.foldl (fun s x => s.logEvent .trip (.location x.source.number) 4)
        (s.logEvent .conditionChange (.location (i.val + 1)) level.code)
      t.cond i = saved true { old with level := level, order := order } ∧ othersKept t ∧ t.cdm.nodes = s.cdm.nodes ∧
      t.bin i = { s.bin i with level := level, rev := nextRev (s.bin i).rev } ∧
      t.evr = (if issues then told.logEvent .rotationOrder (.location (i.val + 1)) level.code else told).evr ∧
      (∀ q, ∃ more, (t.port q).notices = ((s.port q).offer (condition level)).notices ++ more) ∧
      (level = .critical → ∀ c ∈ t.rc.claims, ∀ x, c.state = .running x → x.dest = .bin i → x.source = .bin i) ∧
      (s.rsc.accepting = true → ⟨.condition, i⟩ ∈ t.rsc.queue ∧ ⟨.bin, i⟩ ∈ t.rsc.queue) ∧
      (trips = [] →
        (∀ q, t.port q = (ordered q ((s.port q).offer (condition level)) order cause 0 0).endWatch
          (.bin i) .changed (u16 (nextRev (s.bin i).rev))) ∧
        t = { s with cdm := { s.cdm with bins := t.cdm.bins }, inv := { s.inv with bins := t.inv.bins }, ports := t.ports,
                     evr := t.evr, rsc := { s.rsc with queue := t.rsc.queue } } ∧
        ∀ j, j ≠ i → t.bin j = s.bin j)) ∧
    (∀ transfer mass,
      let t := s.event (·.outboundStarted i transfer mass)
      let order : Order := if old.order = .ordered then .inProgress else old.order
      t.cond i = saved (order != old.order) { old with outbound := some ⟨transfer, mass⟩, order := order } ∧ othersKept t ∧
      (∀ q, t.port q = ordered q (s.port q) order 3 transfer mass) ∧
      t = { s with cdm := { s.cdm with bins := t.cdm.bins }, ports := t.ports, rsc := { s.rsc with queue := t.rsc.queue } }) ∧
    (∀ transfer mass delivered,
      let t := s.event (·.outboundClosed i transfer mass delivered)
      let turned := s.berthCfg.fraction * mass ≤ delivered * 100
      let order : Order := if turned then .none else if old.order = .inProgress then .ordered else old.order
      (turned → rereferenced (fun x => { x with ref := x.temp s.ms }) t ∧
        t.cond i = saved (order != old.order) { old with
          outbound := none, order := order, hottest := { old.hottest with worst := 100 },
          rise := { old.rise with worst := 100 }, age := { old.age with worst := 100 },
          failed := { old.failed with worst := 100 } }) ∧
      (¬turned → t.cdm.nodes = s.cdm.nodes ∧ t.cond i = saved (order != old.order) { old with outbound := none, order := order }) ∧
      othersKept t ∧ (∀ q, t.port q = ordered q (s.port q) order (if turned then 4 else 5) transfer mass) ∧
      t = { s with cdm := { s.cdm with bins := t.cdm.bins, nodes := t.cdm.nodes }, ports := t.ports,
                   rsc := { s.rsc with queue := t.rsc.queue } }) ∧
    (let t := s.event (·.binEmptied i)
     let moved := old.level ≠ .normal
     let rev := if moved then nextRev (s.bin i).rev else (s.bin i).rev
     rereferenced (fun x => { x with ref := none }) t ∧ othersKept t ∧
     t.cond i = saved (old.level != .normal || old.order != .none) { old with
       level := .normal, noData := false, order := .none, hottest := { old.hottest with norm := 100, worst := 100 },
       rise := { old.rise with norm := 100, worst := 100 }, age := { old.age with worst := 100 },
       failed := { old.failed with worst := 100 } } ∧
     (moved → t.bin i = { s.bin i with level := .normal, rev := rev }) ∧ (¬moved → t.bin i = s.bin i) ∧
     t.evr = (if moved then s.logEvent .conditionChange (.location (i.val + 1)) 0 else s).evr ∧
     (∀ q,
       let told := if moved then (s.port q).offer (condition .normal) else s.port q
       let told := ordered q told .none 6 0 0
       t.port q = if moved then told.endWatch (.bin i) .changed (u16 rev) else told) ∧
     t = { s with cdm := { s.cdm with bins := t.cdm.bins, nodes := t.cdm.nodes }, inv := { s.inv with bins := t.inv.bins },
                  ports := t.ports, evr := t.evr, rsc := { s.rsc with queue := t.rsc.queue } })
end

