-- ==== Sys2Proof/Laws/Bytes.lean ====
section
/-! SUPPORT. Numbers and their bytes, sums and check bytes, and the form of bodies. -/
namespace Sys2Proof.Machine

/-- `w` bytes are `w` bytes long. -/
@[simp] theorem be_length (w n : Nat) : (be w n).length = w := by
  induction w with
  | zero => rfl
  | succ w ih => simp [be, ih]

theorem beVal_append_aux (xs : List Byte) (a : Nat) :
    xs.foldl (fun a b => a * 256 + b.toNat) a = a * 256 ^ xs.length + beVal xs := by
  induction xs generalizing a with
  | nil => simp [beVal]
  | cons x xs ih =>
    have h0 : beVal (x :: xs) = (0 * 256 + x.toNat) * 256 ^ xs.length + beVal xs := ih (0 * 256 + x.toNat)
    rw [List.foldl_cons, ih, h0, List.length_cons, Nat.pow_succ, Nat.zero_mul, Nat.zero_add, Nat.add_mul,
      Nat.mul_assoc, Nat.mul_comm (256 ^ xs.length) 256, Nat.add_assoc]

/-- The number spelled by a list is its first byte at its weight and the number of the rest. -/
theorem beVal_cons (x : Byte) (xs : List Byte) : beVal (x :: xs) = x.toNat * 256 ^ xs.length + beVal xs := by
  rw [beVal, List.foldl_cons, beVal_append_aux]; simp

/-- `w` bytes spell a number below `256 ^ w`. -/
theorem beVal_lt (xs : List Byte) : beVal xs < 256 ^ xs.length := by
  induction xs with
  | nil => simp [beVal]
  | cons x xs ih =>
    rw [beVal_cons, List.length_cons, Nat.pow_succ]
    have hx := x.isLt
    have : x.toNat * 256 ^ xs.length ≤ 255 * 256 ^ xs.length := Nat.mul_le_mul_right _ (by omega)
    omega

/-- The bytes of a number spell it modulo its width. -/
theorem beVal_be_mod (w n : Nat) : beVal (be w n) = n % 256 ^ w := by
  induction w generalizing n with
  | zero => simp [be, beVal, Nat.mod_one]
  | succ w ih =>
    have h8 : (2 : Nat) ^ 8 = 256 := rfl
    rw [be, beVal_cons, ih, be_length, BitVec.toNat_ofNat, h8, Nat.pow_succ, Nat.mod_mul (x := n), Nat.mul_comm,
      Nat.add_comm]

/-- The bytes of a number that fits spell it. -/
theorem beVal_be {w n : Nat} (h : n < 256 ^ w) : beVal (be w n) = n := by
  rw [beVal_be_mod, Nat.mod_eq_of_lt h]

/-- The bytes of the number a list spells are the list. -/
theorem be_beVal (xs : List Byte) : be xs.length (beVal xs) = xs := by
  induction xs with
  | nil => rfl
  | cons x xs ih =>
    have hlt := beVal_lt xs
    rw [List.length_cons, be, beVal_cons]
    congr 1
    · rw [Nat.add_comm, Nat.add_mul_div_right _ _ (Nat.pow_pos (by omega)), Nat.div_eq_of_lt hlt]
      simp
    · have : ∀ w n m, n % 256 ^ w = m % 256 ^ w → be w n = be w m := by
        intro w
        induction w with
        | zero => intros; rfl
        | succ w ihw =>
          intro n m hnm
          rw [Nat.pow_succ] at hnm
          have h1 : n % 256 ^ w = m % 256 ^ w := by
            have := congrArg (· % 256 ^ w) hnm
            simpa [Nat.mod_mul_right_mod] using this
          have h2 : n / 256 ^ w % 256 = m / 256 ^ w % 256 := by
            rw [Nat.mod_mul, Nat.mod_mul, h1] at hnm
            have : 256 ^ w * (n / 256 ^ w % 256) = 256 ^ w * (m / 256 ^ w % 256) := by omega
            exact Nat.eq_of_mul_eq_mul_left (Nat.pow_pos (by omega)) this
          rw [be, be, ihw n m h1]
          congr 1
          apply BitVec.eq_of_toNat_eq
          simpa using h2
      rw [this xs.length _ (beVal xs) (by rw [Nat.add_comm, Nat.add_mul_mod_self_right]), ih]

/-- Sums of bytes add up over a join of lists. -/
theorem sumBytes_append (xs ys : List Byte) : sumBytes (xs ++ ys) = sumBytes xs + sumBytes ys := by
  have : ∀ (ys : List Byte) (a : Byte), ys.foldl (· + ·) a = a + sumBytes ys := by
    intro ys
    induction ys with
    | nil => intro a; simp [sumBytes]
    | cons y ys ih =>
      intro a
      have h0 : sumBytes (y :: ys) = (0 + y) + sumBytes ys := ih (0 + y)
      have h1 : (0 : Byte) + y = y := BitVec.zero_add y
      rw [List.foldl_cons, ih, h0, h1, BitVec.add_assoc]
  rw [sumBytes, List.foldl_append, this]; rfl

/-- Bytes and their check byte sum to 0. -/
@[simp] theorem sumBytes_checked (xs : List Byte) : sumBytes (xs ++ [checkByte xs]) = 0 := by
  rw [sumBytes_append]
  show sumBytes xs + (0 + -sumBytes xs) = 0
  have h1 : (0 : Byte) + -sumBytes xs = -sumBytes xs := BitVec.zero_add _
  rw [h1, BitVec.add_right_neg]; rfl

/-- A body reads as fields when each field's bytes spell its value, and what is left is what follows. -/
theorem takeFields_iff (ws : List Nat) (body : List Byte) (xs : List Nat) (rest : List Byte) :
    takeFields ws body = some (xs, rest) ↔
      xs.length = ws.length ∧ (∀ x ∈ ws.zip xs, x.2 < 256 ^ x.1)
        ∧ body = ((ws.zip xs).flatMap fun x => be x.1 x.2) ++ rest := by
  induction ws generalizing body xs with
  | nil =>
    simp only [takeFields, Option.some.injEq, Prod.mk.injEq, List.length_nil, List.zip_nil_left, List.flatMap_nil,
      List.nil_append, List.not_mem_nil, false_implies, implies_true, true_and]
    constructor
    · rintro ⟨rfl, rfl⟩; exact ⟨rfl, rfl⟩
    · rintro ⟨h, rfl⟩; exact ⟨(List.eq_nil_of_length_eq_zero h).symm, rfl⟩
  | cons w ws ih =>
    rw [takeFields]
    split
    · next hlt =>
      constructor
      · intro h; exact absurd h (by simp)
      · rintro ⟨hl, hb, rfl⟩
        exfalso
        cases xs with
        | nil => simp at hl
        | cons x xs =>
          exact absurd hlt (by
            simp only [List.flatMap_cons, List.zip_cons_cons, List.append_assoc, List.length_append, be_length]; omega)
    · next hge =>
      constructor
      · intro h
        split at h
        · next ys r heq =>
          simp only [Option.some.injEq, Prod.mk.injEq] at h
          obtain ⟨rfl, rfl⟩ := h
          obtain ⟨h1, h2, h3⟩ := (ih _ _).1 heq
          have hlen : (body.take w).length = w := by simp; omega
          refine ⟨by simp [h1], ?_, ?_⟩
          · intro x hx
            rcases List.mem_cons.1 (by simpa using hx) with rfl | hx
            · have := beVal_lt (body.take w); rwa [hlen] at this
            · exact h2 x (by simpa using hx)
          · have := be_beVal (body.take w)
            rw [hlen] at this
            simp only [List.zip_cons_cons, List.flatMap_cons, this, List.append_assoc, ← h3, List.take_append_drop]
        · exact absurd h (by simp)
      · rintro ⟨hl, hb, rfl⟩
        cases xs with
        | nil => simp at hl
        | cons x xs =>
          have hx : x < 256 ^ w := hb (w, x) (by simp)
          have hd : (((w :: ws).zip (x :: xs)).flatMap (fun x => be x.1 x.2) ++ rest).drop w
              = ((ws.zip xs).flatMap fun x => be x.1 x.2) ++ rest := by simp
          have ht : (((w :: ws).zip (x :: xs)).flatMap (fun x => be x.1 x.2) ++ rest).take w = be w x := by simp
          rw [hd, ht, (ih _ xs).2 ⟨by simpa using hl, fun y hy => hb y (by simp [hy]), rfl⟩, beVal_be hx]

end Sys2Proof.Machine
end

