-- ==== Sys2Proof/Laws/State.lean ====
section
/-! SUPPORT. What each update of the state leaves alone: one lemma per update and field. -/
namespace Sys2Proof.Machine

variable (s : State) (p : Port) (i : BinIx) (j : PitIx) (k : SegIx) (n : Nat)
variable (seq kind : Byte) (code : Code) (body : List Byte) (r : RecRef)

/-! ### `State.modPort` -/
@[simp] theorem State.modPort_pending (f : SlpPort → SlpPort) : (s.modPort p f).pending = s.pending := rfl
@[simp] theorem State.modPort_phase (f : SlpPort → SlpPort) : (s.modPort p f).phase = s.phase := rfl
@[simp] theorem State.modPort_ms (f : SlpPort → SlpPort) : (s.modPort p f).ms = s.ms := rfl
@[simp] theorem State.modPort_clock (f : SlpPort → SlpPort) : (s.modPort p f).clock = s.clock := rfl
@[simp] theorem State.modPort_cfg (f : SlpPort → SlpPort) : (s.modPort p f).cfg = s.cfg := rfl
@[simp] theorem State.modPort_wbu (f : SlpPort → SlpPort) : (s.modPort p f).wbu = s.wbu := rfl
@[simp] theorem State.modPort_tlr (f : SlpPort → SlpPort) : (s.modPort p f).tlr = s.tlr := rfl
@[simp] theorem State.modPort_inv (f : SlpPort → SlpPort) : (s.modPort p f).inv = s.inv := rfl
@[simp] theorem State.modPort_rc (f : SlpPort → SlpPort) : (s.modPort p f).rc = s.rc := rfl
@[simp] theorem State.modPort_dru (f : SlpPort → SlpPort) : (s.modPort p f).dru = s.dru := rfl
@[simp] theorem State.modPort_cdm (f : SlpPort → SlpPort) : (s.modPort p f).cdm = s.cdm := rfl
@[simp] theorem State.modPort_btu (f : SlpPort → SlpPort) : (s.modPort p f).btu = s.btu := rfl
@[simp] theorem State.modPort_rsc (f : SlpPort → SlpPort) : (s.modPort p f).rsc = s.rsc := rfl
@[simp] theorem State.modPort_evr (f : SlpPort → SlpPort) : (s.modPort p f).evr = s.evr := rfl

/-! ### `State.hear` -/
@[simp] theorem State.hear_pending : (s.hear p).pending = s.pending := rfl
@[simp] theorem State.hear_phase : (s.hear p).phase = s.phase := rfl
@[simp] theorem State.hear_ms : (s.hear p).ms = s.ms := rfl
@[simp] theorem State.hear_clock : (s.hear p).clock = s.clock := rfl
@[simp] theorem State.hear_cfg : (s.hear p).cfg = s.cfg := rfl
@[simp] theorem State.hear_wbu : (s.hear p).wbu = s.wbu := rfl
@[simp] theorem State.hear_tlr : (s.hear p).tlr = s.tlr := rfl
@[simp] theorem State.hear_inv : (s.hear p).inv = s.inv := rfl
@[simp] theorem State.hear_rc : (s.hear p).rc = s.rc := rfl
@[simp] theorem State.hear_dru : (s.hear p).dru = s.dru := rfl
@[simp] theorem State.hear_cdm : (s.hear p).cdm = s.cdm := rfl
@[simp] theorem State.hear_btu : (s.hear p).btu = s.btu := rfl
@[simp] theorem State.hear_rsc : (s.hear p).rsc = s.rsc := rfl
@[simp] theorem State.hear_evr : (s.hear p).evr = s.evr := rfl

/-! ### `State.collide` -/
@[simp] theorem State.collide_pending : (s.collide p).pending = s.pending := rfl
@[simp] theorem State.collide_phase : (s.collide p).phase = s.phase := rfl
@[simp] theorem State.collide_ms : (s.collide p).ms = s.ms := rfl
@[simp] theorem State.collide_clock : (s.collide p).clock = s.clock := rfl
@[simp] theorem State.collide_cfg : (s.collide p).cfg = s.cfg := rfl
@[simp] theorem State.collide_wbu : (s.collide p).wbu = s.wbu := rfl
@[simp] theorem State.collide_tlr : (s.collide p).tlr = s.tlr := rfl
@[simp] theorem State.collide_inv : (s.collide p).inv = s.inv := rfl
@[simp] theorem State.collide_rc : (s.collide p).rc = s.rc := rfl
@[simp] theorem State.collide_dru : (s.collide p).dru = s.dru := rfl
@[simp] theorem State.collide_cdm : (s.collide p).cdm = s.cdm := rfl
@[simp] theorem State.collide_btu : (s.collide p).btu = s.btu := rfl
@[simp] theorem State.collide_rsc : (s.collide p).rsc = s.rsc := rfl
@[simp] theorem State.collide_evr : (s.collide p).evr = s.evr := rfl

/-! ### `State.hold` -/
@[simp] theorem State.hold_pending : (s.hold p seq kind).pending = s.pending := rfl
@[simp] theorem State.hold_phase : (s.hold p seq kind).phase = s.phase := rfl
@[simp] theorem State.hold_ms : (s.hold p seq kind).ms = s.ms := rfl
@[simp] theorem State.hold_clock : (s.hold p seq kind).clock = s.clock := rfl
@[simp] theorem State.hold_cfg : (s.hold p seq kind).cfg = s.cfg := rfl
@[simp] theorem State.hold_wbu : (s.hold p seq kind).wbu = s.wbu := rfl
@[simp] theorem State.hold_tlr : (s.hold p seq kind).tlr = s.tlr := rfl
@[simp] theorem State.hold_inv : (s.hold p seq kind).inv = s.inv := rfl
@[simp] theorem State.hold_rc : (s.hold p seq kind).rc = s.rc := rfl
@[simp] theorem State.hold_dru : (s.hold p seq kind).dru = s.dru := rfl
@[simp] theorem State.hold_cdm : (s.hold p seq kind).cdm = s.cdm := rfl
@[simp] theorem State.hold_btu : (s.hold p seq kind).btu = s.btu := rfl
@[simp] theorem State.hold_rsc : (s.hold p seq kind).rsc = s.rsc := rfl
@[simp] theorem State.hold_evr : (s.hold p seq kind).evr = s.evr := rfl

/-! ### `State.reply` -/
@[simp] theorem State.reply_pending : (s.reply p code body).pending = s.pending := rfl
@[simp] theorem State.reply_phase : (s.reply p code body).phase = s.phase := rfl
@[simp] theorem State.reply_ms : (s.reply p code body).ms = s.ms := rfl
@[simp] theorem State.reply_clock : (s.reply p code body).clock = s.clock := rfl
@[simp] theorem State.reply_cfg : (s.reply p code body).cfg = s.cfg := rfl
@[simp] theorem State.reply_wbu : (s.reply p code body).wbu = s.wbu := rfl
@[simp] theorem State.reply_tlr : (s.reply p code body).tlr = s.tlr := rfl
@[simp] theorem State.reply_inv : (s.reply p code body).inv = s.inv := rfl
@[simp] theorem State.reply_rc : (s.reply p code body).rc = s.rc := rfl
@[simp] theorem State.reply_dru : (s.reply p code body).dru = s.dru := rfl
@[simp] theorem State.reply_cdm : (s.reply p code body).cdm = s.cdm := rfl
@[simp] theorem State.reply_btu : (s.reply p code body).btu = s.btu := rfl
@[simp] theorem State.reply_rsc : (s.reply p code body).rsc = s.rsc := rfl
@[simp] theorem State.reply_evr : (s.reply p code body).evr = s.evr := rfl

/-! ### `State.offer` -/
@[simp] theorem State.offer_pending (ports : List Port) (x : NoticeKind) : (s.offer ports x body).pending = s.pending := rfl
@[simp] theorem State.offer_phase (ports : List Port) (x : NoticeKind) : (s.offer ports x body).phase = s.phase := rfl
@[simp] theorem State.offer_ms (ports : List Port) (x : NoticeKind) : (s.offer ports x body).ms = s.ms := rfl
@[simp] theorem State.offer_clock (ports : List Port) (x : NoticeKind) : (s.offer ports x body).clock = s.clock := rfl
@[simp] theorem State.offer_cfg (ports : List Port) (x : NoticeKind) : (s.offer ports x body).cfg = s.cfg := rfl
@[simp] theorem State.offer_wbu (ports : List Port) (x : NoticeKind) : (s.offer ports x body).wbu = s.wbu := rfl
@[simp] theorem State.offer_tlr (ports : List Port) (x : NoticeKind) : (s.offer ports x body).tlr = s.tlr := rfl
@[simp] theorem State.offer_inv (ports : List Port) (x : NoticeKind) : (s.offer ports x body).inv = s.inv := rfl
@[simp] theorem State.offer_rc (ports : List Port) (x : NoticeKind) : (s.offer ports x body).rc = s.rc := rfl
@[simp] theorem State.offer_dru (ports : List Port) (x : NoticeKind) : (s.offer ports x body).dru = s.dru := rfl
@[simp] theorem State.offer_cdm (ports : List Port) (x : NoticeKind) : (s.offer ports x body).cdm = s.cdm := rfl
@[simp] theorem State.offer_btu (ports : List Port) (x : NoticeKind) : (s.offer ports x body).btu = s.btu := rfl
@[simp] theorem State.offer_rsc (ports : List Port) (x : NoticeKind) : (s.offer ports x body).rsc = s.rsc := rfl
@[simp] theorem State.offer_evr (ports : List Port) (x : NoticeKind) : (s.offer ports x body).evr = s.evr := rfl

/-! ### `State.reportRevision` -/
@[simp] theorem State.reportRevision_pending : (s.reportRevision r n).pending = s.pending := rfl
@[simp] theorem State.reportRevision_phase : (s.reportRevision r n).phase = s.phase := rfl
@[simp] theorem State.reportRevision_ms : (s.reportRevision r n).ms = s.ms := rfl
@[simp] theorem State.reportRevision_clock : (s.reportRevision r n).clock = s.clock := rfl
@[simp] theorem State.reportRevision_cfg : (s.reportRevision r n).cfg = s.cfg := rfl
@[simp] theorem State.reportRevision_wbu : (s.reportRevision r n).wbu = s.wbu := rfl
@[simp] theorem State.reportRevision_tlr : (s.reportRevision r n).tlr = s.tlr := rfl
@[simp] theorem State.reportRevision_inv : (s.reportRevision r n).inv = s.inv := rfl
@[simp] theorem State.reportRevision_rc : (s.reportRevision r n).rc = s.rc := rfl
@[simp] theorem State.reportRevision_dru : (s.reportRevision r n).dru = s.dru := rfl
@[simp] theorem State.reportRevision_cdm : (s.reportRevision r n).cdm = s.cdm := rfl
@[simp] theorem State.reportRevision_btu : (s.reportRevision r n).btu = s.btu := rfl
@[simp] theorem State.reportRevision_rsc : (s.reportRevision r n).rsc = s.rsc := rfl
@[simp] theorem State.reportRevision_evr : (s.reportRevision r n).evr = s.evr := rfl

/-! ### `State.reportDeletion` -/
@[simp] theorem State.reportDeletion_pending : (s.reportDeletion r body).pending = s.pending := rfl
@[simp] theorem State.reportDeletion_phase : (s.reportDeletion r body).phase = s.phase := rfl
@[simp] theorem State.reportDeletion_ms : (s.reportDeletion r body).ms = s.ms := rfl
@[simp] theorem State.reportDeletion_clock : (s.reportDeletion r body).clock = s.clock := rfl
@[simp] theorem State.reportDeletion_cfg : (s.reportDeletion r body).cfg = s.cfg := rfl
@[simp] theorem State.reportDeletion_wbu : (s.reportDeletion r body).wbu = s.wbu := rfl
@[simp] theorem State.reportDeletion_tlr : (s.reportDeletion r body).tlr = s.tlr := rfl
@[simp] theorem State.reportDeletion_inv : (s.reportDeletion r body).inv = s.inv := rfl
@[simp] theorem State.reportDeletion_rc : (s.reportDeletion r body).rc = s.rc := rfl
@[simp] theorem State.reportDeletion_dru : (s.reportDeletion r body).dru = s.dru := rfl
@[simp] theorem State.reportDeletion_cdm : (s.reportDeletion r body).cdm = s.cdm := rfl
@[simp] theorem State.reportDeletion_btu : (s.reportDeletion r body).btu = s.btu := rfl
@[simp] theorem State.reportDeletion_rsc : (s.reportDeletion r body).rsc = s.rsc := rfl
@[simp] theorem State.reportDeletion_evr : (s.reportDeletion r body).evr = s.evr := rfl

/-! ### `State.advanceTo` -/
@[simp] theorem State.advanceTo_pending : (s.advanceTo n).pending = s.pending := rfl
@[simp] theorem State.advanceTo_phase : (s.advanceTo n).phase = s.phase := rfl
@[simp] theorem State.advanceTo_clock : (s.advanceTo n).clock = s.clock := rfl
@[simp] theorem State.advanceTo_cfg : (s.advanceTo n).cfg = s.cfg := rfl
@[simp] theorem State.advanceTo_ports : (s.advanceTo n).ports = s.ports := rfl
@[simp] theorem State.advanceTo_wbu : (s.advanceTo n).wbu = s.wbu := rfl
@[simp] theorem State.advanceTo_tlr : (s.advanceTo n).tlr = s.tlr := rfl
@[simp] theorem State.advanceTo_inv : (s.advanceTo n).inv = s.inv := rfl
@[simp] theorem State.advanceTo_rc : (s.advanceTo n).rc = s.rc := rfl
@[simp] theorem State.advanceTo_dru : (s.advanceTo n).dru = s.dru := rfl
@[simp] theorem State.advanceTo_cdm : (s.advanceTo n).cdm = s.cdm := rfl
@[simp] theorem State.advanceTo_btu : (s.advanceTo n).btu = s.btu := rfl
@[simp] theorem State.advanceTo_rsc : (s.advanceTo n).rsc = s.rsc := rfl
@[simp] theorem State.advanceTo_evr : (s.advanceTo n).evr = s.evr := rfl

/-! ### `State.modBin` -/
@[simp] theorem State.modBin_pending (f : BinRec → BinRec) : (s.modBin i f).pending = s.pending := rfl
@[simp] theorem State.modBin_phase (f : BinRec → BinRec) : (s.modBin i f).phase = s.phase := rfl
@[simp] theorem State.modBin_ms (f : BinRec → BinRec) : (s.modBin i f).ms = s.ms := rfl
@[simp] theorem State.modBin_clock (f : BinRec → BinRec) : (s.modBin i f).clock = s.clock := rfl
@[simp] theorem State.modBin_cfg (f : BinRec → BinRec) : (s.modBin i f).cfg = s.cfg := rfl
@[simp] theorem State.modBin_ports (f : BinRec → BinRec) : (s.modBin i f).ports = s.ports := rfl
@[simp] theorem State.modBin_wbu (f : BinRec → BinRec) : (s.modBin i f).wbu = s.wbu := rfl
@[simp] theorem State.modBin_tlr (f : BinRec → BinRec) : (s.modBin i f).tlr = s.tlr := rfl
@[simp] theorem State.modBin_rc (f : BinRec → BinRec) : (s.modBin i f).rc = s.rc := rfl
@[simp] theorem State.modBin_dru (f : BinRec → BinRec) : (s.modBin i f).dru = s.dru := rfl
@[simp] theorem State.modBin_cdm (f : BinRec → BinRec) : (s.modBin i f).cdm = s.cdm := rfl
@[simp] theorem State.modBin_btu (f : BinRec → BinRec) : (s.modBin i f).btu = s.btu := rfl
@[simp] theorem State.modBin_rsc (f : BinRec → BinRec) : (s.modBin i f).rsc = s.rsc := rfl
@[simp] theorem State.modBin_evr (f : BinRec → BinRec) : (s.modBin i f).evr = s.evr := rfl

/-! ### `State.modPit` -/
@[simp] theorem State.modPit_pending (f : PitRec → PitRec) : (s.modPit j f).pending = s.pending := rfl
@[simp] theorem State.modPit_phase (f : PitRec → PitRec) : (s.modPit j f).phase = s.phase := rfl
@[simp] theorem State.modPit_ms (f : PitRec → PitRec) : (s.modPit j f).ms = s.ms := rfl
@[simp] theorem State.modPit_clock (f : PitRec → PitRec) : (s.modPit j f).clock = s.clock := rfl
@[simp] theorem State.modPit_cfg (f : PitRec → PitRec) : (s.modPit j f).cfg = s.cfg := rfl
@[simp] theorem State.modPit_ports (f : PitRec → PitRec) : (s.modPit j f).ports = s.ports := rfl
@[simp] theorem State.modPit_wbu (f : PitRec → PitRec) : (s.modPit j f).wbu = s.wbu := rfl
@[simp] theorem State.modPit_tlr (f : PitRec → PitRec) : (s.modPit j f).tlr = s.tlr := rfl
@[simp] theorem State.modPit_rc (f : PitRec → PitRec) : (s.modPit j f).rc = s.rc := rfl
@[simp] theorem State.modPit_dru (f : PitRec → PitRec) : (s.modPit j f).dru = s.dru := rfl
@[simp] theorem State.modPit_cdm (f : PitRec → PitRec) : (s.modPit j f).cdm = s.cdm := rfl
@[simp] theorem State.modPit_btu (f : PitRec → PitRec) : (s.modPit j f).btu = s.btu := rfl
@[simp] theorem State.modPit_rsc (f : PitRec → PitRec) : (s.modPit j f).rsc = s.rsc := rfl
@[simp] theorem State.modPit_evr (f : PitRec → PitRec) : (s.modPit j f).evr = s.evr := rfl

/-! ### `State.modSeg` -/
@[simp] theorem State.modSeg_pending (f : Segment → Segment) : (s.modSeg k f).pending = s.pending := rfl
@[simp] theorem State.modSeg_phase (f : Segment → Segment) : (s.modSeg k f).phase = s.phase := rfl
@[simp] theorem State.modSeg_ms (f : Segment → Segment) : (s.modSeg k f).ms = s.ms := rfl
@[simp] theorem State.modSeg_clock (f : Segment → Segment) : (s.modSeg k f).clock = s.clock := rfl
@[simp] theorem State.modSeg_cfg (f : Segment → Segment) : (s.modSeg k f).cfg = s.cfg := rfl
@[simp] theorem State.modSeg_ports (f : Segment → Segment) : (s.modSeg k f).ports = s.ports := rfl
@[simp] theorem State.modSeg_wbu (f : Segment → Segment) : (s.modSeg k f).wbu = s.wbu := rfl
@[simp] theorem State.modSeg_tlr (f : Segment → Segment) : (s.modSeg k f).tlr = s.tlr := rfl
@[simp] theorem State.modSeg_inv (f : Segment → Segment) : (s.modSeg k f).inv = s.inv := rfl
@[simp] theorem State.modSeg_dru (f : Segment → Segment) : (s.modSeg k f).dru = s.dru := rfl
@[simp] theorem State.modSeg_cdm (f : Segment → Segment) : (s.modSeg k f).cdm = s.cdm := rfl
@[simp] theorem State.modSeg_btu (f : Segment → Segment) : (s.modSeg k f).btu = s.btu := rfl
@[simp] theorem State.modSeg_rsc (f : Segment → Segment) : (s.modSeg k f).rsc = s.rsc := rfl
@[simp] theorem State.modSeg_evr (f : Segment → Segment) : (s.modSeg k f).evr = s.evr := rfl

/-! ### `State.modTicket` -/
@[simp] theorem State.modTicket_pending (f : Ticket → Ticket) : (s.modTicket n f).pending = s.pending := rfl
@[simp] theorem State.modTicket_phase (f : Ticket → Ticket) : (s.modTicket n f).phase = s.phase := rfl
@[simp] theorem State.modTicket_ms (f : Ticket → Ticket) : (s.modTicket n f).ms = s.ms := rfl
@[simp] theorem State.modTicket_clock (f : Ticket → Ticket) : (s.modTicket n f).clock = s.clock := rfl
@[simp] theorem State.modTicket_cfg (f : Ticket → Ticket) : (s.modTicket n f).cfg = s.cfg := rfl
@[simp] theorem State.modTicket_ports (f : Ticket → Ticket) : (s.modTicket n f).ports = s.ports := rfl
@[simp] theorem State.modTicket_wbu (f : Ticket → Ticket) : (s.modTicket n f).wbu = s.wbu := rfl
@[simp] theorem State.modTicket_inv (f : Ticket → Ticket) : (s.modTicket n f).inv = s.inv := rfl
@[simp] theorem State.modTicket_rc (f : Ticket → Ticket) : (s.modTicket n f).rc = s.rc := rfl
@[simp] theorem State.modTicket_dru (f : Ticket → Ticket) : (s.modTicket n f).dru = s.dru := rfl
@[simp] theorem State.modTicket_cdm (f : Ticket → Ticket) : (s.modTicket n f).cdm = s.cdm := rfl
@[simp] theorem State.modTicket_btu (f : Ticket → Ticket) : (s.modTicket n f).btu = s.btu := rfl
@[simp] theorem State.modTicket_rsc (f : Ticket → Ticket) : (s.modTicket n f).rsc = s.rsc := rfl
@[simp] theorem State.modTicket_evr (f : Ticket → Ticket) : (s.modTicket n f).evr = s.evr := rfl

/-! ### `State.modLot` -/
@[simp] theorem State.modLot_pending (f : Lot → Lot) : (s.modLot n f).pending = s.pending := rfl
@[simp] theorem State.modLot_phase (f : Lot → Lot) : (s.modLot n f).phase = s.phase := rfl
@[simp] theorem State.modLot_ms (f : Lot → Lot) : (s.modLot n f).ms = s.ms := rfl
@[simp] theorem State.modLot_clock (f : Lot → Lot) : (s.modLot n f).clock = s.clock := rfl
@[simp] theorem State.modLot_cfg (f : Lot → Lot) : (s.modLot n f).cfg = s.cfg := rfl
@[simp] theorem State.modLot_ports (f : Lot → Lot) : (s.modLot n f).ports = s.ports := rfl
@[simp] theorem State.modLot_wbu (f : Lot → Lot) : (s.modLot n f).wbu = s.wbu := rfl
@[simp] theorem State.modLot_inv (f : Lot → Lot) : (s.modLot n f).inv = s.inv := rfl
@[simp] theorem State.modLot_rc (f : Lot → Lot) : (s.modLot n f).rc = s.rc := rfl
@[simp] theorem State.modLot_dru (f : Lot → Lot) : (s.modLot n f).dru = s.dru := rfl
@[simp] theorem State.modLot_cdm (f : Lot → Lot) : (s.modLot n f).cdm = s.cdm := rfl
@[simp] theorem State.modLot_btu (f : Lot → Lot) : (s.modLot n f).btu = s.btu := rfl
@[simp] theorem State.modLot_rsc (f : Lot → Lot) : (s.modLot n f).rsc = s.rsc := rfl
@[simp] theorem State.modLot_evr (f : Lot → Lot) : (s.modLot n f).evr = s.evr := rfl

/-! ### `State.modClaim` -/
@[simp] theorem State.modClaim_pending (f : Claim → Claim) : (s.modClaim n f).pending = s.pending := rfl
@[simp] theorem State.modClaim_phase (f : Claim → Claim) : (s.modClaim n f).phase = s.phase := rfl
@[simp] theorem State.modClaim_ms (f : Claim → Claim) : (s.modClaim n f).ms = s.ms := rfl
@[simp] theorem State.modClaim_clock (f : Claim → Claim) : (s.modClaim n f).clock = s.clock := rfl
@[simp] theorem State.modClaim_cfg (f : Claim → Claim) : (s.modClaim n f).cfg = s.cfg := rfl
@[simp] theorem State.modClaim_ports (f : Claim → Claim) : (s.modClaim n f).ports = s.ports := rfl
@[simp] theorem State.modClaim_wbu (f : Claim → Claim) : (s.modClaim n f).wbu = s.wbu := rfl
@[simp] theorem State.modClaim_tlr (f : Claim → Claim) : (s.modClaim n f).tlr = s.tlr := rfl
@[simp] theorem State.modClaim_inv (f : Claim → Claim) : (s.modClaim n f).inv = s.inv := rfl
@[simp] theorem State.modClaim_dru (f : Claim → Claim) : (s.modClaim n f).dru = s.dru := rfl
@[simp] theorem State.modClaim_cdm (f : Claim → Claim) : (s.modClaim n f).cdm = s.cdm := rfl
@[simp] theorem State.modClaim_btu (f : Claim → Claim) : (s.modClaim n f).btu = s.btu := rfl
@[simp] theorem State.modClaim_rsc (f : Claim → Claim) : (s.modClaim n f).rsc = s.rsc := rfl
@[simp] theorem State.modClaim_evr (f : Claim → Claim) : (s.modClaim n f).evr = s.evr := rfl

/-! ### `State.modCond` -/
@[simp] theorem State.modCond_pending (f : BinCondition → BinCondition) : (s.modCond i f).pending = s.pending := rfl
@[simp] theorem State.modCond_phase (f : BinCondition → BinCondition) : (s.modCond i f).phase = s.phase := rfl
@[simp] theorem State.modCond_ms (f : BinCondition → BinCondition) : (s.modCond i f).ms = s.ms := rfl
@[simp] theorem State.modCond_clock (f : BinCondition → BinCondition) : (s.modCond i f).clock = s.clock := rfl
@[simp] theorem State.modCond_cfg (f : BinCondition → BinCondition) : (s.modCond i f).cfg = s.cfg := rfl
@[simp] theorem State.modCond_ports (f : BinCondition → BinCondition) : (s.modCond i f).ports = s.ports := rfl
@[simp] theorem State.modCond_wbu (f : BinCondition → BinCondition) : (s.modCond i f).wbu = s.wbu := rfl
@[simp] theorem State.modCond_tlr (f : BinCondition → BinCondition) : (s.modCond i f).tlr = s.tlr := rfl
@[simp] theorem State.modCond_inv (f : BinCondition → BinCondition) : (s.modCond i f).inv = s.inv := rfl
@[simp] theorem State.modCond_rc (f : BinCondition → BinCondition) : (s.modCond i f).rc = s.rc := rfl
@[simp] theorem State.modCond_dru (f : BinCondition → BinCondition) : (s.modCond i f).dru = s.dru := rfl
@[simp] theorem State.modCond_btu (f : BinCondition → BinCondition) : (s.modCond i f).btu = s.btu := rfl
@[simp] theorem State.modCond_rsc (f : BinCondition → BinCondition) : (s.modCond i f).rsc = s.rsc := rfl
@[simp] theorem State.modCond_evr (f : BinCondition → BinCondition) : (s.modCond i f).evr = s.evr := rfl

/-! ### `State.enqueue` -/
@[simp] theorem State.enqueue_pending (id : SlotId) : (s.enqueue id).pending = s.pending := by unfold State.enqueue; split <;> rfl
@[simp] theorem State.enqueue_phase (id : SlotId) : (s.enqueue id).phase = s.phase := by unfold State.enqueue; split <;> rfl
@[simp] theorem State.enqueue_ms (id : SlotId) : (s.enqueue id).ms = s.ms := by unfold State.enqueue; split <;> rfl
@[simp] theorem State.enqueue_clock (id : SlotId) : (s.enqueue id).clock = s.clock := by unfold State.enqueue; split <;> rfl
@[simp] theorem State.enqueue_cfg (id : SlotId) : (s.enqueue id).cfg = s.cfg := by unfold State.enqueue; split <;> rfl
@[simp] theorem State.enqueue_ports (id : SlotId) : (s.enqueue id).ports = s.ports := by unfold State.enqueue; split <;> rfl
@[simp] theorem State.enqueue_wbu (id : SlotId) : (s.enqueue id).wbu = s.wbu := by unfold State.enqueue; split <;> rfl
@[simp] theorem State.enqueue_tlr (id : SlotId) : (s.enqueue id).tlr = s.tlr := by unfold State.enqueue; split <;> rfl
@[simp] theorem State.enqueue_inv (id : SlotId) : (s.enqueue id).inv = s.inv := by unfold State.enqueue; split <;> rfl
@[simp] theorem State.enqueue_rc (id : SlotId) : (s.enqueue id).rc = s.rc := by unfold State.enqueue; split <;> rfl
@[simp] theorem State.enqueue_dru (id : SlotId) : (s.enqueue id).dru = s.dru := by unfold State.enqueue; split <;> rfl
@[simp] theorem State.enqueue_cdm (id : SlotId) : (s.enqueue id).cdm = s.cdm := by unfold State.enqueue; split <;> rfl
@[simp] theorem State.enqueue_btu (id : SlotId) : (s.enqueue id).btu = s.btu := by unfold State.enqueue; split <;> rfl
@[simp] theorem State.enqueue_evr (id : SlotId) : (s.enqueue id).evr = s.evr := by unfold State.enqueue; split <;> rfl

/-! ### `State.handOver` -/
@[simp] theorem State.handOver_pending : (s.handOver r).pending = s.pending := by unfold State.handOver; split <;> simp
@[simp] theorem State.handOver_phase : (s.handOver r).phase = s.phase := by unfold State.handOver; split <;> simp
@[simp] theorem State.handOver_ms : (s.handOver r).ms = s.ms := by unfold State.handOver; split <;> simp
@[simp] theorem State.handOver_clock : (s.handOver r).clock = s.clock := by unfold State.handOver; split <;> simp
@[simp] theorem State.handOver_cfg : (s.handOver r).cfg = s.cfg := by unfold State.handOver; split <;> simp
@[simp] theorem State.handOver_ports : (s.handOver r).ports = s.ports := by unfold State.handOver; split <;> simp
@[simp] theorem State.handOver_wbu : (s.handOver r).wbu = s.wbu := by unfold State.handOver; split <;> simp
@[simp] theorem State.handOver_tlr : (s.handOver r).tlr = s.tlr := by unfold State.handOver; split <;> simp
@[simp] theorem State.handOver_inv : (s.handOver r).inv = s.inv := by unfold State.handOver; split <;> simp
@[simp] theorem State.handOver_rc : (s.handOver r).rc = s.rc := by unfold State.handOver; split <;> simp
@[simp] theorem State.handOver_dru : (s.handOver r).dru = s.dru := by unfold State.handOver; split <;> simp
@[simp] theorem State.handOver_cdm : (s.handOver r).cdm = s.cdm := by unfold State.handOver; split <;> simp
@[simp] theorem State.handOver_btu : (s.handOver r).btu = s.btu := by unfold State.handOver; split <;> simp
@[simp] theorem State.handOver_evr : (s.handOver r).evr = s.evr := by unfold State.handOver; split <;> simp

/-! ### `State.logEvent` -/
@[simp] theorem State.logEvent_pending (x : EventKind) (y : Subject) (v : Int) : (s.logEvent x y v).pending = s.pending := by unfold State.logEvent; split <;> simp
@[simp] theorem State.logEvent_phase (x : EventKind) (y : Subject) (v : Int) : (s.logEvent x y v).phase = s.phase := by unfold State.logEvent; split <;> simp
@[simp] theorem State.logEvent_ms (x : EventKind) (y : Subject) (v : Int) : (s.logEvent x y v).ms = s.ms := by unfold State.logEvent; split <;> simp
@[simp] theorem State.logEvent_clock (x : EventKind) (y : Subject) (v : Int) : (s.logEvent x y v).clock = s.clock := by unfold State.logEvent; split <;> simp
@[simp] theorem State.logEvent_cfg (x : EventKind) (y : Subject) (v : Int) : (s.logEvent x y v).cfg = s.cfg := by unfold State.logEvent; split <;> simp
@[simp] theorem State.logEvent_ports (x : EventKind) (y : Subject) (v : Int) : (s.logEvent x y v).ports = s.ports := by unfold State.logEvent; split <;> simp
@[simp] theorem State.logEvent_wbu (x : EventKind) (y : Subject) (v : Int) : (s.logEvent x y v).wbu = s.wbu := by unfold State.logEvent; split <;> simp
@[simp] theorem State.logEvent_tlr (x : EventKind) (y : Subject) (v : Int) : (s.logEvent x y v).tlr = s.tlr := by unfold State.logEvent; split <;> simp
@[simp] theorem State.logEvent_inv (x : EventKind) (y : Subject) (v : Int) : (s.logEvent x y v).inv = s.inv := by unfold State.logEvent; split <;> simp
@[simp] theorem State.logEvent_rc (x : EventKind) (y : Subject) (v : Int) : (s.logEvent x y v).rc = s.rc := by unfold State.logEvent; split <;> simp
@[simp] theorem State.logEvent_dru (x : EventKind) (y : Subject) (v : Int) : (s.logEvent x y v).dru = s.dru := by unfold State.logEvent; split <;> simp
@[simp] theorem State.logEvent_cdm (x : EventKind) (y : Subject) (v : Int) : (s.logEvent x y v).cdm = s.cdm := by unfold State.logEvent; split <;> simp
@[simp] theorem State.logEvent_btu (x : EventKind) (y : Subject) (v : Int) : (s.logEvent x y v).btu = s.btu := by unfold State.logEvent; split <;> simp

/-! ### `State.raiseRev` -/
@[simp] theorem State.raiseRev_pending : (s.raiseRev r).pending = s.pending := by cases r <;> rfl
@[simp] theorem State.raiseRev_phase : (s.raiseRev r).phase = s.phase := by cases r <;> rfl
@[simp] theorem State.raiseRev_ms : (s.raiseRev r).ms = s.ms := by cases r <;> rfl
@[simp] theorem State.raiseRev_clock : (s.raiseRev r).clock = s.clock := by cases r <;> rfl
@[simp] theorem State.raiseRev_cfg : (s.raiseRev r).cfg = s.cfg := by cases r <;> rfl
@[simp] theorem State.raiseRev_ports : (s.raiseRev r).ports = s.ports := by cases r <;> rfl
@[simp] theorem State.raiseRev_wbu : (s.raiseRev r).wbu = s.wbu := by cases r <;> rfl
@[simp] theorem State.raiseRev_cdm : (s.raiseRev r).cdm = s.cdm := by cases r <;> rfl
@[simp] theorem State.raiseRev_rsc : (s.raiseRev r).rsc = s.rsc := by cases r <;> rfl
@[simp] theorem State.raiseRev_evr : (s.raiseRev r).evr = s.evr := by cases r <;> rfl

/-! ### `State.revise` -/
@[simp] theorem State.revise_pending : (s.revise r).pending = s.pending := by unfold State.revise; dsimp only; split <;> simp
@[simp] theorem State.revise_phase : (s.revise r).phase = s.phase := by unfold State.revise; dsimp only; split <;> simp
@[simp] theorem State.revise_ms : (s.revise r).ms = s.ms := by unfold State.revise; dsimp only; split <;> simp
@[simp] theorem State.revise_clock : (s.revise r).clock = s.clock := by unfold State.revise; dsimp only; split <;> simp
@[simp] theorem State.revise_cfg : (s.revise r).cfg = s.cfg := by unfold State.revise; dsimp only; split <;> simp
@[simp] theorem State.revise_wbu : (s.revise r).wbu = s.wbu := by unfold State.revise; dsimp only; split <;> simp
@[simp] theorem State.revise_cdm : (s.revise r).cdm = s.cdm := by unfold State.revise; dsimp only; split <;> simp
@[simp] theorem State.revise_evr : (s.revise r).evr = s.evr := by unfold State.revise; dsimp only; split <;> simp

/-! ### Fields of the blocks an update writes -/

@[simp] theorem State.advanceTo_ms : (s.advanceTo n).ms = max s.ms n := rfl

@[simp] theorem upd_same {α : Type} {m : Nat} (v : Vector α m) (i : Fin m) (f : α → α) : (upd v i f)[i] = f v[i] := by
  simp [upd]

theorem upd_other {α : Type} {m : Nat} (v : Vector α m) {i j : Fin m} (f : α → α) (h : j ≠ i) :
    (upd v i f)[j] = v[j] := by
  have : i.val ≠ j.val := fun e => h (Fin.ext e.symm)
  simp [upd, this]

@[simp] theorem PerPort.get_upd_same {α : Type} (x : PerPort α) (p : Port) (f : α → α) :
    (x.upd p f).get p = f (x.get p) := by cases p <;> rfl

theorem PerPort.get_upd_other {α : Type} (x : PerPort α) {p q : Port} (f : α → α) (h : q ≠ p) :
    (x.upd p f).get q = x.get q := by cases p <;> cases q <;> first | rfl | exact absurd rfl h

@[simp] theorem PerPort.get_map {α β : Type} (f : α → β) (x : PerPort α) : (x.map f).get p = f (x.get p) := by
  cases p <;> rfl

@[simp] theorem State.port_modPort (f : SlpPort → SlpPort) : (s.modPort p f).port p = f (s.port p) :=
  PerPort.get_upd_same ..

theorem State.port_modPort_other (f : SlpPort → SlpPort) {q : Port} (h : q ≠ p) :
    (s.modPort p f).port q = s.port q := PerPort.get_upd_other _ _ h

@[simp] theorem State.port_reportRevision :
    (s.reportRevision r n).port p = SlpPort.endWatch r .changed (u16 n) (s.port p) := PerPort.get_map ..

@[simp] theorem State.port_reportDeletion :
    (s.reportDeletion r body).port p = SlpPort.endWatch r .gone body (s.port p) := PerPort.get_map ..

@[simp] theorem State.port_offer (ports : List Port) (x : NoticeKind) :
    (s.offer ports x body).port p = if ports.contains p then (s.port p).offer ⟨x, body⟩ else s.port p := by
  cases p <;> rfl

@[simp] theorem State.bin_modBin (f : BinRec → BinRec) : (s.modBin i f).bin i = f (s.bin i) := upd_same ..

theorem State.bin_modBin_other (f : BinRec → BinRec) {x : BinIx} (h : x ≠ i) : (s.modBin i f).bin x = s.bin x :=
  upd_other _ _ h

@[simp] theorem State.pit_modPit (f : PitRec → PitRec) : (s.modPit j f).pit j = f (s.pit j) := upd_same ..

theorem State.pit_modPit_other (f : PitRec → PitRec) {x : PitIx} (h : x ≠ j) : (s.modPit j f).pit x = s.pit x :=
  upd_other _ _ h

@[simp] theorem State.seg_modSeg (f : Segment → Segment) : (s.modSeg k f).seg k = f (s.seg k) := upd_same ..

theorem State.seg_modSeg_other (f : Segment → Segment) {x : SegIx} (h : x ≠ k) : (s.modSeg k f).seg x = s.seg x :=
  upd_other _ _ h

@[simp] theorem State.pit_modBin (f : BinRec → BinRec) : (s.modBin i f).pit j = s.pit j := rfl
@[simp] theorem State.bin_modPit (f : PitRec → PitRec) : (s.modPit j f).bin i = s.bin i := rfl

/-- The write-back queue is all of the Retained Store Controller that an owner's hand-over changes. -/
theorem State.enqueue_rsc (id : SlotId) :
    (s.enqueue id).rsc = { s.rsc with queue :=
      if s.rsc.accepting && !s.rsc.queue.contains id then s.rsc.queue ++ [id] else s.rsc.queue } := by
  unfold State.enqueue; split <;> rfl

@[simp] theorem State.enqueue_store (id : SlotId) : (s.enqueue id).rsc.store = s.rsc.store := by
  rw [State.enqueue_rsc]

@[simp] theorem State.handOver_store : (s.handOver r).rsc.store = s.rsc.store := by
  unfold State.handOver; split <;> simp

@[simp] theorem State.logEvent_store (x : EventKind) (y : Subject) (v : Int) :
    (s.logEvent x y v).rsc.store = s.rsc.store := by
  unfold State.logEvent; split <;> simp


@[simp] theorem State.revise_store : (s.revise r).rsc.store = s.rsc.store := by
  unfold State.revise; dsimp only; split <;> simp

/-! ### Events -/

variable (e : Ev)

@[simp] theorem Ev.start_st : (Ev.start s).st = s := rfl
@[simp] theorem Ev.start_touched : (Ev.start s).touched = [] := rfl
@[simp] theorem Ev.start_adds : (Ev.start s).adds = [] := rfl
@[simp] theorem Ev.start_rels : (Ev.start s).rels = [] := rfl
@[simp] theorem Ev.map_st (f : State → State) : (e.map f).st = f e.st := rfl
@[simp] theorem Ev.map_touched (f : State → State) : (e.map f).touched = e.touched := rfl
@[simp] theorem Ev.map_adds (f : State → State) : (e.map f).adds = e.adds := rfl
@[simp] theorem Ev.map_rels (f : State → State) : (e.map f).rels = e.rels := rfl
@[simp] theorem Ev.touch_st : (e.touch r).st = e.st.handOver r := rfl
@[simp] theorem Ev.touch_adds : (e.touch r).adds = e.adds := rfl
@[simp] theorem Ev.touch_rels : (e.touch r).rels = e.rels := rfl
@[simp] theorem Ev.commit_touched : e.commit.touched = [] := rfl
@[simp] theorem Ev.commit_adds : e.commit.adds = e.adds := rfl
@[simp] theorem Ev.commit_rels : e.commit.rels = e.rels := rfl
@[simp] theorem Ev.reply_st : (e.reply p code body).st = e.st.reply p code body := rfl
@[simp] theorem Ev.reply_touched : (e.reply p code body).touched = e.touched := rfl
@[simp] theorem Ev.log_st (x : EventKind) (y : Subject) (v : Int) : (e.log x y v).st = e.st.logEvent x y v := rfl
@[simp] theorem Ev.log_touched (x : EventKind) (y : Subject) (v : Int) : (e.log x y v).touched = e.touched := rfl
@[simp] theorem Ev.offer_st (ports : List Port) (x : NoticeKind) : (e.offer ports x body).st = e.st.offer ports x body := rfl
@[simp] theorem Ev.offer_touched (ports : List Port) (x : NoticeKind) : (e.offer ports x body).touched = e.touched := rfl
@[simp] theorem Ev.enqueue_st (id : SlotId) : (e.enqueue id).st = e.st.enqueue id := rfl
@[simp] theorem Ev.enqueue_touched (id : SlotId) : (e.enqueue id).touched = e.touched := rfl

/-- An event that touches no record ends as it stands. -/
theorem Ev.commit_of_untouched (h : e.touched = []) : e.commit = e := by
  cases e; simp_all [Ev.commit]

/-- An event that touches one record ends with that record's revision change. -/
theorem Ev.commit_of_one (h : e.touched = [r]) : e.commit.st = e.st.revise r := by
  simp [Ev.commit, h]

end Sys2Proof.Machine
end

