-- ==== Sys2Proof/Laws/Slots.lean ====
section
/-! SUPPORT. What the arrival of a request can do, said once: it is not heard, it collides, the SLP answers it, or
its owning block acts on it. -/
namespace Sys2Proof.Machine

variable (s : State) (p q : Port) (k : ReqKind) (seq : Byte) (code : Code) (body : List Byte) (act : Ev → Ev)

/-- A state whose port `p` holds a request just taken, before its owner acts. -/
def State.taken (s : State) (k : ReqKind) (p : Port) (seq : Byte) : State := (s.hear p).hold p seq k.code

@[simp] theorem State.port_hear :
    (s.hear p).port p = { s.port p with timer := some s.ms, silent := false, receiver := .hunting } :=
  State.port_modPort ..

@[simp] theorem State.port_hold (kind : Byte) : (s.hold p seq kind).port p = { s.port p with slot := .acting seq kind } :=
  State.port_modPort ..

@[simp] theorem State.port_reply : (s.reply p code body).port p = SlpPort.reply code body (s.port p) :=
  State.port_modPort ..

theorem State.port_hear_other {q : Port} (h : q ≠ p) : (s.hear p).port q = s.port q := State.port_modPort_other _ _ _ h

theorem State.port_hold_other (kind : Byte) {q : Port} (h : q ≠ p) : (s.hold p seq kind).port q = s.port q :=
  State.port_modPort_other _ _ _ h

theorem State.port_reply_other {q : Port} (h : q ≠ p) : (s.reply p code body).port q = s.port q :=
  State.port_modPort_other _ _ _ h

/-- Two changes of one port are one change. -/
theorem State.modPort_modPort (f g : SlpPort → SlpPort) : (s.modPort p f).modPort p g = s.modPort p (g ∘ f) := by
  cases p <;> rfl

/-- A request that is accepted passes the SLP. -/
theorem State.arrive_of_accepts (h : s.accepts k p) : s.arrive k p seq = (s.taken k p seq, true) := by
  obtain ⟨h1, h2, h3, h4⟩ := h
  simp [State.arrive, h1, h2, h3, h4, State.taken]

/-- A request that is accepted is handed to its owner in one event. -/
theorem State.request_of_accepts (h : s.accepts k p) : s.request k p seq act = (s.taken k p seq).event act := by
  simp [State.request, State.arrive_of_accepts s p k seq h]

/-- A request that the SLP does not hand over leaves what its arrival left: no owner acts on it (R4, R5). A
CANCEL WATCH at a PARKED slot is the one request this does not speak of. -/
theorem exec_of_refused {t : State} (h : s.arrive k p seq = (t, false)) (hp : (s.port p).slot.isParked = false ∨ k ≠ .cancelWatch) :
    exec (k.command p seq body) s = .next t := by
  have hr : ∀ act, s.request k p seq act = t := fun act => by simp [State.request, h]
  cases k
  case cancelWatch =>
    have : (s.port p).slot.isParked = false := by simpa using hp
    simp only [ReqKind.command, exec, execCancelWatch, this, Bool.and_false, Bool.false_eq_true, if_false]
    exact congrArg _ (hr _)
  all_goals exact congrArg _ (hr _)

/-- A request frame that does not reach the receiver changes nothing (R7). -/
theorem State.request_of_deaf (h : s.hears p = false) : s.request k p seq act = s := by
  simp [State.request, State.arrive, h]

@[simp] theorem State.taken_rest :
    (s.taken k p seq).pending = s.pending ∧ (s.taken k p seq).phase = s.phase ∧ (s.taken k p seq).ms = s.ms
      ∧ (s.taken k p seq).clock = s.clock ∧ (s.taken k p seq).cfg = s.cfg ∧ (s.taken k p seq).wbu = s.wbu
      ∧ (s.taken k p seq).tlr = s.tlr ∧ (s.taken k p seq).inv = s.inv ∧ (s.taken k p seq).rc = s.rc
      ∧ (s.taken k p seq).dru = s.dru ∧ (s.taken k p seq).cdm = s.cdm ∧ (s.taken k p seq).btu = s.btu
      ∧ (s.taken k p seq).rsc = s.rsc ∧ (s.taken k p seq).evr = s.evr := by
  simp [State.taken]

/-- An accepted request that its owner answers at once, changing nothing else, differs by the answer alone. -/
theorem State.taken_reply : (s.taken k p seq).reply p code body = s.answeredAt k p seq code body := by
  cases p <;> rfl

/-- The port of a request just taken. -/
theorem State.port_taken :
    (s.taken k p seq).port p
      = { s.port p with timer := some s.ms, silent := false, receiver := .hunting, slot := .acting seq k.code } := by
  simp [State.taken]

theorem State.port_taken_other {q : Port} (h : q ≠ p) : (s.taken k p seq).port q = s.port q := by
  simp [State.taken, State.port_hold_other _ _ _ _ h, State.port_hear_other _ _ h]

/-- Putting an answer into a slot that holds the request being acted on. -/
theorem SlpPort.reply_acting {x : SlpPort} {kind : Byte} (h : x.slot = .acting seq kind) :
    SlpPort.reply code body x = { x with slot := .answering ⟨seq, kind, code, body⟩ none } := by
  simp [SlpPort.reply, h]

/-- A revision change leaves a port alone whose slot does not hold a watch on the record. -/
theorem SlpPort.endWatch_of_slot {x : SlpPort} {r : RecRef} (h : ∀ n w, x.slot ≠ .parked n w) :
    SlpPort.endWatch r code body x = x := by
  unfold SlpPort.endWatch
  split
  · next h' => exact absurd h' (h _ _)
  · rfl

@[simp] theorem SlpPort.offer_slot (n : Notice) (x : SlpPort) : (x.offer n).slot = x.slot := by
  unfold SlpPort.offer; split <;> rfl

@[simp] theorem SlpPort.offer_receiver (n : Notice) (x : SlpPort) : (x.offer n).receiver = x.receiver := by
  unfold SlpPort.offer; split <;> rfl

@[simp] theorem SlpPort.offer_timer (n : Notice) (x : SlpPort) : (x.offer n).timer = x.timer := by
  unfold SlpPort.offer; split <;> rfl

@[simp] theorem SlpPort.offer_silent (n : Notice) (x : SlpPort) : (x.offer n).silent = x.silent := by
  unfold SlpPort.offer; split <;> rfl

@[simp] theorem SlpPort.offer_tx (n : Notice) (x : SlpPort) : (x.offer n).tx = x.tx := by
  unfold SlpPort.offer; split <;> rfl

/-- A notice queue that held at most 8 notices holds at most 8 after an offer (R9). -/
theorem SlpPort.offer_bounded (n : Notice) (x : SlpPort) (h : x.notices.length ≤ 8) :
    (x.offer n).notices.length ≤ 8 := by
  unfold SlpPort.offer; split <;> (try simp) <;> omega

end Sys2Proof.Machine
end

