-- ==== Sys2Proof/Laws/Events.lean ====
section
/-! SUPPORT. What one step, one event of an owning block, the freeing of a claim and a trip can do, each said once. -/
namespace Sys2Proof.Machine

variable (s t : State) (p : Port) (k : ReqKind) (seq : Byte) (code : Code) (body : List Byte) (e : Ev) (n : Nat)

/-- What a step that answers a next state did: it ran the front command, or a millisecond passed. -/
theorem step_cases {s t : State} (h : step s = .next t) :
    (s.pending = [] ∧ t = s.idle) ∨ ∃ c rest, s.pending = c :: rest ∧ exec c { s with pending := rest } = .next t := by
  unfold step at h
  split at h
  · next hp => cases h; exact .inl ⟨hp, rfl⟩
  · next c rest hp => exact .inr ⟨c, rest, hp, h⟩

/-- Idling moves monotonic time at most. -/
theorem State.idle_eq : s.idle = { s with ms := s.idle.ms } := by
  unfold State.idle; split <;> rfl

/-- An expected revision passes when it is 0 or the current one (R12). -/
theorem revPasses_iff (expected current : Nat) : revPasses expected current = true ↔ expected = 0 ∨ expected = current := by
  simp [revPasses]

/-! ### Events that only answer -/

/-- A request whose owner only answers changes its port and nothing else. -/
theorem State.event_reply {act : Ev → Ev}
    (h : act (Ev.start (s.taken k p seq)) = (Ev.start (s.taken k p seq)).reply p code body) :
    (s.taken k p seq).event act = s.answeredAt k p seq code body := by
  unfold State.event
  rw [h, Ev.commit_of_untouched _ rfl]
  exact State.taken_reply ..

/-- The same, from the command's request. -/
theorem State.request_reply {act : Ev → Ev} (ha : s.accepts k p)
    (h : act (Ev.start (s.taken k p seq)) = (Ev.start (s.taken k p seq)).reply p code body) :
    s.request k p seq act = s.answeredAt k p seq code body := by
  rw [State.request_of_accepts _ _ _ _ _ ha]
  exact State.event_reply _ _ _ _ _ _ h

/-! ### What folds and commits keep -/

/-- A fold keeps what each of its steps keeps. -/
theorem foldl_keeps {α β : Type} (P : α → Prop) (f : α → β → α) (h : ∀ a b, P a → P (f a b)) :
    ∀ (bs : List β) (a : α), P a → P (bs.foldl f a)
  | [], _, ha => ha
  | b :: bs, a, ha => foldl_keeps P f h bs (f a b) (h a b ha)

/-- A fold keeps a value that each of its steps keeps. -/
theorem foldl_same {α β γ : Type} (v : α → γ) (f : α → β → α) (h : ∀ a b, v (f a b) = v a) (bs : List β) (a : α) :
    v (bs.foldl f a) = v a :=
  foldl_keeps (fun x => v x = v a) f (fun x b hx => (h x b).trans hx) bs a rfl

/-- What the revision changes of an event never touch (R10). -/
structure State.RevFrame (s t : State) : Prop where
  pending : t.pending = s.pending
  phase : t.phase = s.phase
  ms : t.ms = s.ms
  clock : t.clock = s.clock
  cfg : t.cfg = s.cfg
  wbu : t.wbu = s.wbu
  cdm : t.cdm = s.cdm
  evr : t.evr = s.evr
  store : t.rsc.store = s.rsc.store

/-- A state frames itself. -/
theorem State.RevFrame.refl : s.RevFrame s := ⟨rfl, rfl, rfl, rfl, rfl, rfl, rfl, rfl, rfl⟩

/-- Frames compose. -/
theorem State.RevFrame.trans {s t u : State} (a : s.RevFrame t) (b : t.RevFrame u) : s.RevFrame u :=
  ⟨b.pending.trans a.pending, b.phase.trans a.phase, b.ms.trans a.ms, b.clock.trans a.clock, b.cfg.trans a.cfg,
   b.wbu.trans a.wbu, b.cdm.trans a.cdm, b.evr.trans a.evr, b.store.trans a.store⟩

/-- A revision change stays in its frame. -/
theorem State.revise_frame (r : RecRef) : s.RevFrame (s.revise r) := by
  constructor <;> simp

/-- The end of an event stays in that frame. -/
theorem Ev.commit_frame : e.st.RevFrame e.commit.st :=
  foldl_keeps (fun x => e.st.RevFrame x) _ (fun a r h => h.trans (a.revise_frame r)) e.touched e.st (State.RevFrame.refl _)

/-! ### Segments, claims and trips (R101, R111) -/

/-- A segment change stays in the revision frame and touches no record of the event. -/
theorem Ev.changeSeg_frame (i : SegIx) (f : Segment → Segment) :
    e.st.RevFrame (e.changeSeg i f).st ∧ (e.changeSeg i f).touched = e.touched :=
  ⟨State.RevFrame.trans (t := e.st.modSeg i f) ⟨rfl, rfl, rfl, rfl, rfl, rfl, rfl, rfl, rfl⟩
    (State.revise_frame (e.st.modSeg i f) (.segment i)), rfl⟩

/-- Freeing a claim stays in the revision frame and touches no record of the event (R101). -/
theorem Ev.freeClaim_frame (keep : Option SegIx) :
    e.st.RevFrame (e.freeClaim n keep).st ∧ (e.freeClaim n keep).touched = e.touched := by
  have h := foldl_keeps (fun x : Ev => e.st.RevFrame x.st ∧ x.touched = e.touched)
    (fun (e : Ev) (i : SegIx) => e.changeSeg i fun x => { x with state := .free, permit := false })
    (fun a i h => ⟨h.1.trans (a.changeSeg_frame i _).1, h.2⟩)
    ((e.st.segsOf n).filter fun i => keep != some i) e ⟨State.RevFrame.refl _, rfl⟩
  exact ⟨h.1.trans ⟨rfl, rfl, rfl, rfl, rfl, rfl, rfl, rfl, rfl⟩, h.2⟩

/-- RESTART's freeing of one segment stays in the revision frame and touches no record of the event (R97, R175). -/
theorem Ev.dropSeg_frame (i : SegIx) : e.st.RevFrame (e.dropSeg i).st ∧ (e.dropSeg i).touched = e.touched := by
  unfold Ev.dropSeg
  split
  · exact ⟨State.RevFrame.refl _, rfl⟩
  · exact e.changeSeg_frame i _

/-- The dropping of every claim at RESTART stays in the revision frame, touches no record of the event and leaves no
claim (R175). -/
theorem Ev.dropClaims_frame :
    e.st.RevFrame e.dropClaims.st ∧ e.dropClaims.touched = e.touched ∧ e.dropClaims.st.rc.claims = [] := by
  have h := foldl_keeps (fun x : Ev => e.st.RevFrame x.st ∧ x.touched = e.touched) Ev.dropSeg
    (fun a i h => ⟨h.1.trans (a.dropSeg_frame i).1, (a.dropSeg_frame i).2.trans h.2⟩)
    (List.finRange 20) e ⟨State.RevFrame.refl _, rfl⟩
  unfold Ev.dropClaims
  generalize (List.finRange 20).foldl Ev.dropSeg e = a at h ⊢
  have h := foldl_keeps (fun x : Ev => e.st.RevFrame x.st ∧ x.touched = e.touched)
    (fun (e : Ev) (c : Claim) => e.map (·.reportDeletion (.claim c.number) []))
    (fun a _ h => ⟨h.1.trans ⟨rfl, rfl, rfl, rfl, rfl, rfl, rfl, rfl, rfl⟩, h.2⟩) a.st.rc.claims a h
  dsimp only
  generalize a.st.rc.claims.foldl _ a = b at h ⊢
  exact ⟨h.1.trans ⟨rfl, rfl, rfl, rfl, rfl, rfl, rfl, rfl, rfl⟩, h.2, rfl⟩

/-- A trip does nothing unless its claim is RUNNING (R111). -/
theorem Ev.trip_of_not_running (cause : TripCause) (h : ∀ c x, e.st.claim n = some c → c.state ≠ .running x) :
    e.trip n cause = e := by
  unfold Ev.trip
  split
  · rfl
  · next c hc => split
                 · next x hx => exact absurd hx (h c x hc)
                 · rfl

/-- What a judgement does: nothing, or a trip with cause SOURCE_EMPTY or LIMIT (R109). -/
theorem Ev.judge_cases (after : Bool) :
    e.judge n after = e ∨ e.judge n after = e.trip n .sourceEmpty ∨ e.judge n after = e.trip n .limit := by
  unfold Ev.judge
  split
  · exact .inl rfl
  · split
    · split
      · exact .inr (.inl rfl)
      · split
        · exact .inr (.inr rfl)
        · exact .inl rfl
    · exact .inl rfl

end Sys2Proof.Machine
end

