-- ==== Sys2Proof/Laws/Store.lean ====
section
/-! SUPPORT. The retained store: every write keeps its canonical form, a read after a write gives the byte
written, and a write leaves every other byte alone. -/
namespace Sys2Proof.Machine

/-- A store that lies above a bound lies above every lower bound. -/
theorem Store.wfAbove_mono {m : Store} {x y : Nat} (h : Store.wfAbove (some y) m = true) (hxy : x ≤ y) :
    Store.wfAbove (some x) m = true := by
  cases m with
  | nil => rfl
  | cons e m =>
    obtain ⟨a, b⟩ := e
    simp only [Store.wfAbove, Bool.and_eq_true, decide_eq_true_eq] at h ⊢
    exact ⟨⟨by omega, h.1.2⟩, h.2⟩

/-- A store above a bound is canonical. -/
theorem Store.wf_of_wfAbove {m : Store} {x : Nat} (h : Store.wfAbove (some x) m = true) : Store.wfAbove none m = true := by
  cases m with
  | nil => rfl
  | cons e m =>
    obtain ⟨a, b⟩ := e
    simp only [Store.wfAbove, Bool.and_eq_true, decide_eq_true_eq] at h ⊢
    exact ⟨⟨trivial, h.1.2⟩, h.2⟩

/-- An address at or below the bound of a store reads as never written. -/
theorem Store.read_below {m : Store} {x y : Nat} (h : Store.wfAbove (some y) m = true) (hxy : x ≤ y) :
    Store.read m x = 0xFF := by
  induction m generalizing y with
  | nil => rfl
  | cons e m ih =>
    obtain ⟨a, b⟩ := e
    simp only [Store.wfAbove, Bool.and_eq_true, decide_eq_true_eq] at h
    have hne : ¬a = x := by omega
    simp only [Store.read, hne, if_false]
    exact ih h.2 (by omega)

/-- One byte stored above a bound keeps the form above that bound. -/
theorem Store.write1_wfAbove {m : Store} {lo : Option Nat} {x : Nat} {v : Byte} (h : Store.wfAbove lo m = true)
    (hx : ∀ l, lo = some l → l < x) : Store.wfAbove lo (Store.write1 m x v) = true := by
  induction m generalizing lo with
  | nil =>
    simp only [Store.write1]
    split
    · rfl
    · next hv =>
      cases lo with
      | none => simpa [Store.wfAbove] using hv
      | some l => simpa [Store.wfAbove, hx l rfl] using hv
  | cons e m ih =>
    obtain ⟨a, b⟩ := e
    simp only [Store.wfAbove, Bool.and_eq_true] at h
    obtain ⟨⟨h1, h2⟩, h3⟩ := h
    have hlo : Store.wfAbove lo [(x, (0 : Byte))] = true := by
      cases lo with
      | none => rfl
      | some l => simpa [Store.wfAbove] using hx l rfl
    simp only [Store.wfAbove, Bool.and_eq_true] at hlo
    by_cases hxa : x < a
    · by_cases hv : v = 0xFF
      · simp only [Store.write1, hxa, hv, if_true, Store.wfAbove, Bool.and_eq_true]
        exact ⟨⟨h1, h2⟩, h3⟩
      · simp only [Store.write1, hxa, hv, if_true, if_false, Store.wfAbove, Bool.and_eq_true]
        exact ⟨⟨hlo.1.1, by simpa using hv⟩, ⟨by simp, h2⟩, h3⟩
    · by_cases hxe : x = a
      · subst hxe
        by_cases hv : v = 0xFF
        · simp only [Store.write1, hxa, hv, if_true, if_false]
          cases lo with
          | none => exact Store.wf_of_wfAbove h3
          | some l => exact Store.wfAbove_mono h3 (Nat.le_of_lt (hx l rfl))
        · simp only [Store.write1, hxa, hv, if_true, if_false, Store.wfAbove, Bool.and_eq_true]
          exact ⟨⟨hlo.1.1, by simpa using hv⟩, h3⟩
      · simp only [Store.write1, hxa, hxe, if_false, Store.wfAbove, Bool.and_eq_true]
        refine ⟨⟨h1, h2⟩, ih h3 fun l hl => ?_⟩
        cases hl
        omega

/-- Storing one byte keeps the canonical form. -/
theorem Store.write1_wf {m : Store} (x : Nat) (v : Byte) (h : m.wf = true) : (Store.write1 m x v).wf = true :=
  Store.write1_wfAbove h fun _ hl => nomatch hl

/-- Within the store an address leads to itself. -/
theorem storePlace_within {a : Nat} (h : a < storeSize) : storePlace a = some a := if_pos h

/-- Within the store a byte is stored at its address. -/
theorem Store.put_within (m : Store) {a : Nat} (v : Byte) (h : a < storeSize) : m.put a v = m.write1 a v := by
  simp only [Store.put, storePlace_within h]

/-- Within the store a byte is read at its address. -/
theorem Store.get_within (m : Store) {a : Nat} (h : a < storeSize) : m.get a = m.read a := by
  simp only [Store.get, storePlace_within h]

/-- A byte on the store bus keeps the canonical form, wherever it leads. -/
theorem Store.put_wf {m : Store} (a : Nat) (v : Byte) (h : m.wf = true) : (m.put a v).wf = true := by
  unfold Store.put
  split
  · exact Store.write1_wf _ v h
  · exact h

/-- Storing bytes keeps the canonical form. -/
theorem Store.write_wf {m : Store} (x : Nat) (vs : List Byte) (h : m.wf = true) : (m.write x vs).wf = true := by
  induction vs generalizing m x with
  | nil => exact h
  | cons v vs ih => exact ih (x + 1) (Store.put_wf x v h)

/-- What a cut-off write leaves is canonical. -/
theorem Store.torn_wf {m : Store} (w : StoreWrite) (left : List Byte) (h : m.wf = true) : (m.torn w left).wf = true :=
  Store.write_wf _ _ h

/-- A byte other than the one stored reads as before. -/
theorem Store.read_write1_other (m : Store) {x y : Nat} (v : Byte) (hxy : y ≠ x) :
    Store.read (Store.write1 m x v) y = Store.read m y := by
  induction m with
  | nil =>
    simp only [Store.write1]
    split
    · rfl
    · simp [Store.read, Ne.symm hxy]
  | cons e m ih =>
    obtain ⟨a, b⟩ := e
    simp only [Store.write1]
    split
    · split
      · rfl
      · simp [Store.read, Ne.symm hxy]
    · split
      · next hxa =>
        subst hxa
        split
        · simp [Store.read, Ne.symm hxy]
        · simp [Store.read, Ne.symm hxy]
      · simp only [Store.read, ih]

/-- The byte stored reads back. -/
theorem Store.read_write1_same {m : Store} {lo : Option Nat} (x : Nat) (v : Byte) (h : Store.wfAbove lo m = true) :
    Store.read (Store.write1 m x v) x = v := by
  induction m generalizing lo with
  | nil =>
    simp only [Store.write1]
    split
    · next hv => exact hv.symm
    · simp [Store.read]
  | cons e m ih =>
    obtain ⟨a, b⟩ := e
    simp only [Store.wfAbove, Bool.and_eq_true] at h
    simp only [Store.write1]
    split
    · next hxa =>
      split
      · next hv =>
        rw [hv]
        simp only [Store.read, show ¬a = x by omega, if_false]
        exact Store.read_below h.2 (by omega)
      · simp [Store.read]
    · split
      · next hxa =>
        subst hxa
        split
        · next hv => rw [hv]; exact Store.read_below h.2 (Nat.le_refl _)
        · simp [Store.read]
      · next hxa =>
        simp only [Store.read, show ¬a = x by omega, if_false]
        exact ih h.2

/-- A byte no address of the range leads to reads as before. -/
theorem Store.read_write_elsewhere (m : Store) {x y : Nat} (vs : List Byte)
    (h : ∀ k, k < vs.length → storePlace (x + k) ≠ some y) : (m.write x vs).read y = m.read y := by
  induction vs generalizing m x with
  | nil => rfl
  | cons v vs ih =>
    have h0 : (m.put x v).read y = m.read y := by
      have := h 0 (by simp)
      simp only [Nat.add_zero] at this
      unfold Store.put
      split
      · next z hz => exact Store.read_write1_other m v fun e => this (by rw [hz, e])
      · rfl
    simp only [Store.write]
    rw [ih (m.put x v) fun k hk => ?_, h0]
    have := h (k + 1) (by simpa using hk)
    rwa [show x + 1 + k = x + (k + 1) by omega]

/-- A byte outside the range stored to reads as before, the range standing within the store. -/
theorem Store.read_write_outside (m : Store) {x y : Nat} (vs : List Byte) (hin : x + vs.length ≤ storeSize)
    (h : ¬(x ≤ y ∧ y < x + vs.length)) : (m.write x vs).read y = m.read y := by
  refine Store.read_write_elsewhere m vs fun k hk => ?_
  rw [storePlace_within (by omega)]
  intro he
  cases he
  exact h ⟨by omega, by omega⟩

/-- Each byte stored reads back, the range standing within the store. -/
theorem Store.read_write_inside {m : Store} {x k : Nat} {vs : List Byte} {v : Byte} (h : m.wf = true)
    (hin : x + vs.length ≤ storeSize) (hk : vs[k]? = some v) : (m.write x vs).read (x + k) = v := by
  induction vs generalizing m x k with
  | nil => simp at hk
  | cons w vs ih =>
    simp only [List.length_cons] at hin
    cases k with
    | zero =>
      simp only [List.getElem?_cons_zero, Option.some.injEq] at hk
      simp only [Store.write, Nat.add_zero]
      rw [Store.read_write_outside _ _ (by omega) (by omega), hk, Store.put_within m v (by omega)]
      exact Store.read_write1_same x v h
    | succ k =>
      simp only [List.getElem?_cons_succ] at hk
      have := ih (m := m.put x w) (x := x + 1) (Store.put_wf x w h) (by omega) hk
      rw [Store.write, ← this]
      congr 1
      omega

/-- A cut-off write leaves every byte its range does not lead to alone. -/
theorem Store.read_torn_elsewhere (m : Store) (w : StoreWrite) (left : List Byte) {y : Nat}
    (h : ∀ k, k < w.bytes.length → storePlace (w.addr + k) ≠ some y) : (m.torn w left).read y = m.read y := by
  refine Store.read_write_elsewhere m _ fun k hk => h k ?_
  simp only [List.length_take] at hk
  omega

/-- A cut-off write leaves every byte outside its range alone, the range standing within the store. -/
theorem Store.read_torn_outside (m : Store) (w : StoreWrite) (left : List Byte) {y : Nat}
    (hin : w.addr + w.bytes.length ≤ storeSize) (h : ¬(w.addr ≤ y ∧ y < w.addr + w.bytes.length)) :
    (m.torn w left).read y = m.read y := by
  refine Store.read_write_outside m _ ?_ ?_
  all_goals simp only [List.length_take]; omega

/-- Two canonical stores that read alike are equal: the form of R172's never-written byte is unique. -/
theorem Store.ext_of_read {m n : Store} (hm : m.wf = true) (hn : n.wf = true) (h : ∀ x, m.read x = n.read x) : m = n := by
  suffices key : ∀ (m n : Store) (lo : Option Nat), Store.wfAbove lo m = true → Store.wfAbove lo n = true →
      (∀ x, m.read x = n.read x) → m = n from key m n none hm hn h
  intro m
  induction m with
  | nil =>
    intro n lo _ hn h
    cases n with
    | nil => rfl
    | cons e n =>
      obtain ⟨a, b⟩ := e
      simp only [Store.wfAbove, Bool.and_eq_true, bne_iff_ne, ne_eq] at hn
      have := h a
      simp only [Store.read, if_true] at this
      exact absurd this.symm hn.1.2
  | cons e m ih =>
    obtain ⟨a, b⟩ := e
    intro n lo hm hn h
    simp only [Store.wfAbove, Bool.and_eq_true, bne_iff_ne, ne_eq] at hm
    cases n with
    | nil =>
      have := h a
      simp only [Store.read, if_true] at this
      exact absurd this hm.1.2
    | cons f n =>
      obtain ⟨c, d⟩ := f
      simp only [Store.wfAbove, Bool.and_eq_true, bne_iff_ne, ne_eq] at hn
      have hac : a = c := by
        rcases Nat.lt_trichotomy a c with hlt | heq | hlt
        · have := h a
          simp only [Store.read, if_true, show ¬c = a by omega, if_false] at this
          rw [Store.read_below hn.2 (Nat.le_of_lt hlt)] at this
          exact absurd this hm.1.2
        · exact heq
        · have := h c
          simp only [Store.read, if_true, show ¬a = c by omega, if_false] at this
          rw [Store.read_below hm.2 (Nat.le_of_lt hlt)] at this
          exact absurd this.symm hn.1.2
      subst hac
      have hbd : b = d := by simpa [Store.read] using h a
      subst hbd
      have : m = n := by
        refine ih n (some a) hm.2 hn.2 fun x => ?_
        by_cases hx : x ≤ a
        · rw [Store.read_below hm.2 hx, Store.read_below hn.2 hx]
        · have := h x
          simpa [Store.read, show ¬a = x by omega] using this
      rw [this]

/-- The store right after reset is canonical. -/
theorem Store.reset_wf : State.reset.rsc.store.wf = true := rfl

end Sys2Proof.Machine
end

