-- ==== Sys2Proof/WellFormed.lean ====
section
/-! DEFINITION. Which commands are well formed: their operands are what the pins, the stations and the store
can deliver. -/
namespace Sys2Proof

/-- A body is at most 240 bytes (section 1.2). -/
def bodyFits (body : List Byte) : Bool := decide (body.length ≤ 240)

/-- What a cut-off write left is at most an area of 16,383 bytes (section 10.1). -/
def leftFits (left : List Byte) : Bool := decide (left.length ≤ 16383)

/-- Whether the operands of a command are well formed. -/
def Instr.wellFormed : Instr → Bool
  | .powerOn | .resetNReleased | .configurationLoaded | .mirrorLoaded => true
  | .resetNAsserted left | .powerLoss left | .configWriteTimeout left | .mirrorWriteTimeout left => leftFits left
  | .frameError _ chars | .interCharacterTimeout _ chars => !chars.isEmpty
  | .collided _ _ => true
  | .undefinedKindRequest _ _ kind => !Machine.isRequestKind kind
  | .portReset _ | .transmissionStart _ | .answerSent _ | .noticeSent _ | .silenceTimeout _ | .watchExpired _
  | .lineReturnsToIdle _ => true
  | .status _ _ b | .readRecord _ _ b | .watch _ _ b | .cancelWatch _ _ b | .readEvents _ _ b
  | .openTicket _ _ b | .captureGross _ _ b | .enterSample _ _ b | .assignPit _ _ b | .reportDumped _ _ b
  | .captureTare _ _ b | .voidTicket _ _ b | .zeroBridge _ _ b | .placeHold _ _ b | .releaseHold _ _ b
  | .setCeiling _ _ b | .lockCeiling _ _ b | .unlockCeiling _ _ b | .freezeCeilings _ _ b | .adjustMass _ _ b
  | .acceptBalance _ _ b | .claimRoute _ _ b | .startTransfer _ _ b | .reportMass _ _ b | .releaseClaim _ _ b
  | .reportSegmentMotion _ _ b | .clearSegmentFault _ _ b | .closeFeed _ _ b | .reportBatchOut _ _ b
  | .startSurvey _ _ b | .abortSurvey _ _ b | .berthBarge _ _ b | .amendPlan _ _ b | .reportStage _ _ b
  | .closeBarge _ _ b | .setClock _ _ b | .restart _ _ b | .writeConfigurationArea _ _ b
  | .readConfigurationArea _ _ b => bodyFits b
  | .drainExpiry claim => decide (1 ≤ claim ∧ claim ≤ 255)
  | .stageStale | .mirrorWriteStart | .storeStatusPoll _ | .wsiIdle | .sampleArrival _ | .stalenessTimerExpiry
  | .captureDeadline | .pollCycleExpiry | .busTransactionStart | .convertComplete _ | .pollConversionWait
  | .selfCheckEnd _ | .surveyConversionWait | .clockHoldTimeout => true
  | .readPointsEnd reply => match reply with | some bs => bs.length == 9 | none => true

end Sys2Proof
end

