-- ==== Sys2Proof/Tests/Slice0.lean ====
section
/-! SUPPORT. Small tests: ill-formed commands refused, the manual's worked cases, one step of each family, and for
each statement with hypotheses a state and operands that meet them, at the edges of its clauses. -/
namespace Sys2Proof.Tests
open Sys2Proof.Machine

/- The theorems are checked one after another, so that few threads wait at a time. -/
set_option Elab.async false

/-! ### Ill-formed commands (WellFormed) -/

theorem test_body_longer_than_240_is_ill_formed :
    (Instr.openTicket .scale 1 (List.replicate 241 0)).wellFormed = false
      ∧ (Instr.openTicket .scale 1 (List.replicate 240 0)).wellFormed = true := by decide +kernel

theorem test_remains_longer_than_an_area_are_ill_formed :
    leftFits (List.replicate 16384 0) = false ∧ leftFits (List.replicate 16383 0) = true := by
  simp only [leftFits, List.length_replicate]; decide

theorem test_a_frame_error_without_characters_is_ill_formed :
    (Instr.frameError .dock []).wellFormed = false ∧ (Instr.interCharacterTimeout .dock []).wellFormed = false := by decide

theorem test_a_table_kind_is_no_undefined_kind :
    (Instr.undefinedKindRequest .yard 1 0x27).wellFormed = false
      ∧ (Instr.undefinedKindRequest .yard 1 0x28).wellFormed = true := by decide

theorem test_claim_numbers_run_from_1_to_255 :
    (Instr.drainExpiry 0).wellFormed = false ∧ (Instr.drainExpiry 256).wellFormed = false
      ∧ (Instr.drainExpiry 255).wellFormed = true := by decide

theorem test_a_cable_reply_has_nine_bytes :
    (Instr.readPointsEnd (some [1, 2, 3])).wellFormed = false
      ∧ (Instr.readPointsEnd (some (List.replicate 9 0))).wellFormed = true := by decide

/-! ### The worked cases of chapter 4 -/

/-- The scale of section 4.2. -/
def scaleCfg : ScaleConfig := ⟨1280, 0, 20, 80000⟩

/-- Commodity 1 of section 3.8. -/
def corn : Commodity := ⟨[], 150, 155, 50, true⟩

/-- Section 4.2, from counts to net. -/
theorem test_counts_to_net : displayed 20 (rawMass scaleCfg 0 2143898) = 41880
    ∧ displayed 20 (rawMass scaleCfg 0 743988) = 14540 := by decide

/-- Section 4.1: truncation goes toward zero. R22: ties go to the even multiple. -/
theorem test_roundings : rawMass ⟨65536, 0, 20, 80000⟩ 0 (-34) = -34 ∧ Int.tdiv (-339) 10 = -33
    ∧ displayed 20 10 = 0 ∧ displayed 20 30 = 40 ∧ displayed 20 (-10) = 0 := by decide

/-- Section 4.3, lot 3117, and the same truck at 14.8 %. -/
theorem test_standard_mass : standardMass corn 27340 186 = ⟨1158, 137, 26045⟩
    ∧ standardMass corn 27340 148 = ⟨0, 0, 27340⟩ := by decide

/-- Section 4.4, the merge and the second increment. -/
theorem test_blend : blend [(64000, 147), (36000, 154)] = 150 ∧ blend [(100000, 150), (4000, 154)] = 150 := by decide

/-- Section 4.5, batch out. -/
theorem test_drying_expectation : expectedOut 27340 5085240 150 = 26182 ∧ dryingTolerance 27340 15 = 410
    ∧ expectedOut 27340 5085240 158 = 26430 := by decide

/-- Section 4.6, one wet layer, and a dry layer under a wet one. -/
theorem test_moisture_headroom : moistureHeadroom 145 600000 84600000 [(500000, 152)] = 342857
    ∧ moistureHeadroom 145 600000 84600000 [(200000, 139), (600000, 152)] = 714285 := by decide

/-- Section 4.7, stages for one barge. -/
theorem test_cargo_ceiling : ([470, 410, 400, 390, 300, 180].map (cargoCeiling (-120) 30 290 60 6800))
    = [1564000, 1360000, 1292000, 1224000, 612000, 0] := by decide

/-- Section 4.8, the stage drop during loading. -/
theorem test_rescale_on_a_stage_drop :
    rescale 1224000 [(272000, 272000), (272000, 272000), (272000, 100000), (272000, 0), (272000, 0)]
      = [272000, 272000, 239400, 220300, 220300] := by decide +kernel

/-- Section 4.8, a unit passed over, and section 9.8, the second drop. -/
theorem test_rescale_passes_over_and_drops_again :
    rescale 99900 [(150, 0), (250, 0), (99600, 0)] = [100, 200, 99600]
    ∧ rescale 1156000 [(272000, 272000), (220400, 0), (239300, 180000), (220300, 0), (272000, 272000)]
      = [272000, 190500, 231200, 190300, 272000] := by decide +kernel

/-- Section 4.9, trim on a five-hold barge. -/
theorem test_trim : let holds := [150000, 120000, 90000, 100000, 140000]
    trim holds = 30000 ∧ (List.range 5).map (fun k => trimHeadroom 60000 holds (k + 1))
      = [some 30000, some 30000, none, some 90000, some 90000] := by decide

/-- Section 4.10, HOTTEST and RISE. -/
theorem test_normalise : [15, 16, 30, 33, 34, 44, 45].map (normalise 15 45) = [100, 97, 51, 41, 38, 5, 1]
    ∧ [7, 8, -3].map (normalise 2 12) = [51, 41, 100] := by decide

/-- R70, R71, R72: the ends of each figure. -/
theorem test_age_fill_and_progress : ageDays true 86500 100 = 1 ∧ ageDays true 86499 100 = 0 ∧ ageDays true 5 6 = 0
    ∧ ageDays false 86500 100 = 0 ∧ fillPercent 300 100 = 255 ∧ fillPercent 1 0 = 0
    ∧ surveyProgress 5 5 = 9 ∧ surveyProgress 1 100 = 1 ∧ surveyProgress 0 5 = 0 := by decide

/-! ### Frames (section 1.2) -/

/-- An answer to sequence 0x22 of WATCH: CHANGED with COLLIDED and revision 42 (section 1.11). The check makes the
bytes after the opener sum to 0. -/
theorem test_answer_frame : Answer.frame ⟨0x22, 0x03, .changed, u16 42⟩ ⟨true, false, false, false⟩
    = [0xC3, 0x04, 0x22, 0x83, 0x01, 0x01, 0x00, 0x2A, 0x2B] := by decide

theorem test_text_fields : takeText [0xC2, 0x4B, 0x54, 9] = some ([0x4B, 0x54], [9]) ∧ takeText [0xC2, 0x4B] = none
    ∧ takeText [0x82, 0x4B, 0x54] = none ∧ takeText [0xC1, 0x7F] = none := by decide

/-! ### A small terminal -/

/-- The routes of the small terminal. -/
def routes : List Route := [
  ⟨1, .pit 0, .bin 0, [0, 1], [.yard, .office], 500, 30⟩,
  ⟨2, .bin 0, .reject, [2], [.yard, .office], 0, 10⟩,
  ⟨3, .bin 0, .bin 1, [3], [.yard, .office], 1000, 30⟩,
  ⟨5, .bin 0, .berth, [7], [.dock, .office], 500, 20⟩,
  ⟨40, .pit 1, .dryer, [18, 19], [.dryer], 5000, 120⟩]

/-- A layer of 5,000 kg at 14 %. -/
def layer : Layer := ⟨1, 5000, 140, 2, .intake, 0, [7], false⟩

/-- A READY part: a scale, two commodities, five routes, 28 STORAGE bins of 1,000,000 kg, two pits of 20,000 kg, and
5,000 kg of corn in B01. -/
def terminal : State :=
  { State.reset with
    phase := .ready
    cfg := { Cfg.none with
      scale := some scaleCfg
      commodities := some ((Vector.replicate 8 ⟨[], 0, 0, 0, false⟩).set 1 corn)
      routes := some routes
      berth := some ⟨-120, 30, 60000, 15, 50⟩ }
    inv := { State.reset.inv with
      bins := (Vector.replicate 28 (BinRec.created .storage 1000000)).set 0
        { BinRec.created .storage 1000000 with commodity := some 1, layers := [layer], layerCtr := 1 }
      pits := Vector.replicate 2 (PitRec.created 20000) }
    rsc := { State.reset.rsc with accepting := true }
    evr := { State.reset.evr with standing := true } }

/-- The code in the slot of a port after a command, when it answers. -/
def codeAt (p : Port) : Host.Outcome State Fault Refusal → Option Code
  | .next t => match (t.port p).slot with | .answering a _ => some a.code | _ => none
  | _ => none

/-- The body in the slot of a port after a command, when it answers. -/
def bodyAt (p : Port) : Host.Outcome State Fault Refusal → List Byte
  | .next t => match (t.port p).slot with | .answering a _ => a.body | _ => []
  | _ => []

/-- The small terminal at a bridge state, with the latest counts and the window's newest raw mass. -/
def weighing (bridge : Bridge) (counts : Int) : State :=
  { terminal with wbu :=
    { terminal.wbu with bridge := bridge, latest := some counts, window := List.replicate 16 (rawMass scaleCfg 0 counts),
                        timer := some 0 } }

/-- Ticket 3117 of section 3.8 in a state. -/
def ticket (state : TicketState) : Ticket :=
  { pos := 0, number := 3117, state := state, commodity := 1, plate := [],
    gross := if state = .opened then none else some ⟨41880, 0⟩,
    sample := if state = .opened ∨ state = .weighedIn then none else some ⟨186, false, 2⟩,
    pit := if state = .assigned ∨ state = .dumped then some 1 else none, rev := 5 }

/-- A state with ticket 3117 open in it. -/
def withTicket (s : State) (state : TicketState) : State :=
  { s with tlr := { tickets := [ticket state], lots := [], counter := 3117 } }

/-- A state with a claim in it that holds segments S01 and S02 when it stands on route 1. -/
def withClaim (s : State) (c : Claim) : State :=
  { s with rc := { s.rc with
    claims := [c], claimCtr := c.number
    segments := s.rc.segments.mapFinIdx fun i x _ =>
      if ((s.route c.route).map (·.segments)).getD [] |>.any (·.val == i) then
        { x with state := .held c.number, permit := c.runs fun _ => true }
      else x } }

/-- A transfer from B01. -/
def transfer (dest : Loc) : Transfer :=
  { number := 9, source := .bin 0, dest := dest, bargeHold := if dest = .berth then 1 else 0, requested := none,
    reported := 100, delivered := 100, lots := [], shortfall := false, overrun := false, overfill := false,
    untraced := false, cause := none, massAtStart := 5100, openLayer := none, startTime := 0, tripTime := 0,
    closeTime := 0 }

/-- B01 RUNNING to REJECT on claim 6 of Yard. -/
def running : State := withClaim terminal ⟨6, .yard, 2, .running (transfer .reject), 3⟩

/-- The same transfer DRAINING until 10,000 ms. -/
def draining : State := withClaim terminal ⟨6, .yard, 2, .draining (transfer .reject) 10000, 3⟩

/-- Claim 6 of Yard on route 1, CLAIMED. -/
def claimed : State := withClaim terminal ⟨6, .yard, 1, .claimed, 1⟩

/-- A state whose slot at a port is as given. -/
def withSlot (s : State) (p : Port) (slot : Slot) : State := s.modPort p fun q => { q with slot := slot }

/-- A barge of five holds at the figures of section 9.8, before the stage drop. -/
def barge : Btu :=
  { Btu.created with
    state := .planned, commodity := 1, maxMoisture := 145, worstGrade := 2, hullMax := 290, lightDraft := 60,
    tpc := 6800, stage := some 410, fresh := true, timer := some 0, ceiling := 1360000, rev := 300,
    holds := [⟨272000, 272000, 0, some 2, [7], false⟩, ⟨272000, 0, 0, none, [], false⟩,
      ⟨272000, 100000, 0, some 2, [7, 8], false⟩, ⟨272000, 0, 0, none, [], false⟩,
      ⟨272000, 272000, 0, some 2, [8], false⟩] }

/-- The small terminal with that barge berthed. -/
def loading : State := { terminal with btu := barge }

/-- A batch at the figures of section 7.8. -/
def batch (state : BatchState) : Batch :=
  { number := 41, state := state, inMass := 27340, inSum := 5085240, grade := 2, lots := [3117], untraced := false,
    outMass := 0, outMoisture := 0, remaining := 0, underdried := false, fillTime := 0, closeTime := 0, outTime := 0 }

/-- The small terminal with that batch in the dryer. -/
def drying (state : BatchState) : State := { terminal with dru := ⟨[batch state], some 1, 41, 215⟩ }

/-- The small terminal with two nodes, in B01 and B02. -/
def cabled : State :=
  { terminal with cdm := { terminal.cdm with nodes := [Node.start 0x10 0 1, Node.start 0x6F 1 1], pollDue := some 5000 } }

/-- A survey of both nodes by Yard, at its first node. -/
def surveyRun : SurveyRun := ⟨1, .yard, [], 0, [0x10, 0x6F], [0x10, 0x6F], 1, none, none, none, none⟩

/-- The small terminal in that survey, with a bus transaction. -/
def surveying (r : SurveyRun) (bus : Option BusTx) : State :=
  { cabled with cdm := { cabled.cdm with survey := some r, surveyCtr := 1, bus := bus } }

/-- A store write of three bytes at address 0x1000. -/
def writing (target : WriteTarget) (jobs : List ConfigJob) : State :=
  { terminal with rsc :=
    { terminal.rsc with write := some ⟨target, 0x1000, [1, 2, 3], 0⟩, jobs := jobs, store := [(0xFFF, 7), (0x1001, 8)] } }

/-- A header whose first area stands at `8 * place` with a room of 256 and a length of 200. -/
def header (place : Nat) : List Byte :=
  let h := u16 place ++ [1, 0, 0, 200] ++ List.replicate 42 0
  h ++ [checkByte h]

/-- The small terminal with that header in the store. -/
def stored (place : Nat) : State :=
  { terminal with rsc := { terminal.rsc with store := Store.write [] 0 (header place) } }

/-! ### One step of each family -/

/-- R39, section 3.8: OPEN TICKET issues 3117 from a counter of 3116 and answers revision 1, OPEN, commodity 1. -/
theorem test_open_ticket :
    let s : State := { terminal with tlr := { terminal.tlr with counter := 3116 } }
    (bodyAt .scale (exec (.openTicket .scale 1 (1 :: textField [0x4B, 0x54])) s)).take 6
      = u16 1 ++ u16 3117 ++ [0, 1] := by decide +kernel

/-- R50: a commodity that is not configured is RANGE. R5: Dock may not open a ticket. -/
theorem test_open_ticket_refusals :
    codeAt .scale (exec (.openTicket .scale 1 [0, 0xC0]) terminal) = some .range
      ∧ codeAt .dock (exec (.openTicket .dock 1 [1, 0xC0]) terminal) = some .role := by decide +kernel

/-- R33, R41: 20 d is the least mass a capture takes. -/
theorem test_captures_take_20_divisions :
    let s (counts : Int) := withTicket (weighing .stable counts) .opened
    codeAt .scale (exec (.captureGross .scale 1 (u16 3117 ++ u16 0)) (s 20480)) = some .ok
      ∧ codeAt .scale (exec (.captureGross .scale 1 (u16 3117 ++ u16 0)) (s 19900)) = some .range := by decide +kernel

/-- R42: 350 is the most a sample records; grade 6 is RANGE. -/
theorem test_enter_sample :
    let s := withTicket terminal .weighedIn
    let ask (m g : Nat) := exec (.enterSample .scale 1 (u16 3117 ++ u16 5 ++ u16 m ++ u8 g)) s
    (match ask 351 5 with | .next t => (t.ticket 3117).map (·.sample) | _ => none) = some (some ⟨350, true, 5⟩)
      ∧ (match ask 350 1 with | .next t => (t.ticket 3117).map (·.sample) | _ => none) = some (some ⟨350, false, 1⟩)
      ∧ codeAt .scale (ask 350 6) = some .range := by decide +kernel

/-- Section 3.8: the tare of 14,540 kg makes lot 3117 with its worked figures and adds the net to Received. -/
theorem test_capture_tare :
    let s := withTicket (weighing .stable 743988) .dumped
    let s := s.modPit 1 fun b => { b with state := .receiving 3117 }
    (match exec (.captureTare .scale 1 (u16 3117 ++ u16 5)) s with
      | .next t => (t.lot 3117).map fun l => (l.net, l.standard, l.waterShrink, l.handlingShrink, l.wet, l.refs)
      | _ => none) = some (27340, 26045, 1158, 137, true, 1) := by decide +kernel

/-- R24: a spread of one division is STABLE, one more is MOTION; Cs + 9d is not OVERLOAD. -/
theorem test_bridge_states :
    let c : ScaleConfig := ⟨65536, 0, 20, 80000⟩
    let w (raw : Int) (old : Int) : Bridge :=
      ({ Wbu.start with window := old :: List.replicate 15 raw }.weigh c raw 0).bridge
    let v (raw : Int) (old : Int) : Bridge :=
      ({ Wbu.start with window := List.replicate 14 raw ++ [old] }.weigh c raw 0).bridge
    w 100 500 = .stable ∧ v 100 120 = .stable ∧ v 100 121 = .motion ∧ w 80180 80180 = .stable ∧ w 80181 80181 = .overload
      ∧ w (-400) (-400) = .stable ∧ w (-401) (-401) = .underload := by decide +kernel

/-- R89: Scale lifts its own STANDARD hold, not one Office placed; nobody lifts STRICT. -/
theorem test_release_hold :
    let s (h : Hold) := terminal.modBin 27 fun b => { b with hold := some h }
    let ask (h : Hold) := codeAt .scale (exec (.releaseHold .scale 1 (28 :: u16 0)) (s h))
    ask ⟨.standard, .scale⟩ = some .ok ∧ ask ⟨.standard, .office⟩ = some .role ∧ ask ⟨.strict, .scale⟩ = some .held := by
  decide +kernel

/-- R86: a ceiling at the content is taken, one kilogram below it is BELOW_CONTENT. -/
theorem test_set_ceiling :
    let ask (m : Nat) := codeAt .yard (exec (.setCeiling .yard 1 (1 :: u16 0 ++ u32 m ++ [0])) terminal)
    ask 5000 = some .ok ∧ ask 4999 = some .belowContent := by decide +kernel

/-- R100: a claim of route 1 holds S01 and S02; the same route is then CONFLICT on S01, claim 1 of Yard. -/
theorem test_claim_route :
    (match exec (.claimRoute .yard 1 [1]) terminal with
      | .next t => ((t.seg 0).state, (t.seg 1).state, (t.seg 2).state)
      | _ => (.faulted, .faulted, .faulted)) = (.held 1, .held 1, .free)
    ∧ bodyAt .office (exec (.claimRoute .office 1 [1]) claimed) = [1, 6, 3] := by decide +kernel

/-- R106, R107: a report of 5,100 releases the last 5,000 kg of B01 to REJECT and counts them; R109: the empty source
trips the transfer, and its permit falls. -/
theorem test_report_mass_to_reject :
    (match exec (.reportMass .yard 1 (6 :: u16 3 ++ u16 9 ++ u32 5100)) running with
      | .next t => ((t.bin 0).mass, t.inv.balance.rejected, t.rc.claims.map fun c => (c.transfer.bind (·.cause)),
                    (t.seg 2).permit)
      | _ => (1, 0, [], true)) = (0, 5000, [some .sourceEmpty], false) := by decide +kernel

/-- R118: RUNNING on a FREE segment faults it. -/
theorem test_segment_fault :
    (match exec (.reportSegmentMotion .yard 1 (20 :: u16 0 ++ [1])) terminal with
      | .next t => (t.seg 19).state | _ => .free) = .faulted := by decide +kernel

/-- Section 7.8: the batch of 27,340 kg out at 26,020 kg and 15.0 % answers 41, 26,182, 410, −162 and 0. -/
theorem test_batch_out :
    (match exec (.reportBatchOut .dryer 1 (u16 215 ++ u32 26020 ++ u16 150)) (drying .drying) with
      | .next t => ((bodyAt .dryer (.next t)).drop ((bodyAt .dryer (.next t)).length - 15), t.inv.balance.dryingLoss,
                    t.dru.batches.map (·.underdried), t.dru.rev)
      | _ => ([], 0, [], 0))
      = (u16 41 ++ u32 26182 ++ u32 410 ++ s32 (-162) ++ [0], 1320, [false], 216) := by decide +kernel

/-- Section 9.8: a stage of 390 cuts the targets to 1,224,000 kg, and the revision goes once to 301. -/
theorem test_report_stage :
    (match exec (.reportStage .dock 1 (u16 300 ++ u16 390)) loading with
      | .next t => (t.btu.ceiling, t.btu.holds.map (·.target), t.btu.rev)
      | _ => (0, [], 0)) = (1224000, [272000, 220400, 239300, 220300, 272000], 301) := by decide +kernel

/-- R139: the third read in a row without a good reply makes the node silent. -/
theorem test_three_unanswered_reads :
    let s : State := { cabled with cdm := { cabled.cdm with
      nodes := [{ Node.start 0x10 0 1 with noAnswer := 2 }], bus := some ⟨.orphan, .readPoints 0x10⟩ } }
    (match exec (.readPointsEnd none) s with
      | .next t => (t.cdm.nodes.map (·.silent), t.evr.ring.map (·.kind)) | _ => ([], [])) = ([true], [.cableSilent]) := by
  decide +kernel

/-- R169: an area near the end of the store is refused by its room alone, so a whole one that runs past store byte
0x1FFFF starts its write. The area stands at 0x1FFF8. -/
theorem test_an_area_past_the_store_is_written_where_it_can_be :
    (match exec (.writeConfigurationArea .office 1 (u8 1 ++ u16 9 ++ u16 0 ++ List.replicate 9 0)) (stored 0x3FFF) with
      | .next t => (t.rsc.write.map (·.addr), (t.port .office).slot) | _ => (none, .empty))
    = (some 0x1FFF8, .acting 1 0x5A) := by decide +kernel

/-- R169: an area queued behind a write of the header goes to the place the new header gives, 8 * 32. -/
theorem test_a_queued_area_follows_the_header_written_before_it :
    let s : State := { stored 16 with rsc := { (stored 16).rsc with
      write := some ⟨.config, 0, header 32, 0⟩
      jobs := [⟨none, 0, 49, []⟩, ⟨some .office, 1, 200, [.content [5], .header 200]⟩] } }
    (match exec (.storeStatusPoll 0xFE) s with
      | .next t => t.rsc.write.map fun w => (w.addr, w.bytes) | _ => none) = some (256, [5]) := by decide +kernel

/-- R177: SET CLOCK answers the time before and the time set; terminal time then runs with monotonic seconds. -/
theorem test_set_clock :
    (match exec (.setClock .office 1 (u32 1000)) terminal with
      | .next t => (bodyAt .office (.next t), ({ t with ms := 2999 }).term)
      | _ => ([], 0)) = (u32 0 ++ u32 1000, 1002) := by decide +kernel

/-- R168, R175: a store never written fails its header, and start-up ends in CONFIG_FAULT. -/
theorem test_an_unwritten_store_is_a_config_fault :
    (match exec .configurationLoaded State.reset with | .next t => t.phase | _ => .off) = .configFault := by decide +kernel

/-! ### Witnesses: for each statement with hypotheses, a state and operands that meet them -/

theorem witness_StepRunsTheFrontCommand :
    State.reset.pending = [] ∧ State.reset.phase ≠ .off ∧ State.reset.phase ≠ .resetHeld
      ∧ ({ State.reset with phase := .off } : State).phase = .off := by decide +kernel

theorem witness_EveryStepKeepsTheStoreCanonical :
    let s : State := { writing (.mirror ⟨.bin, 0⟩) [] with pending := [.storeStatusPoll 0] }
    s.storeLaw ∧ ∃ t, step s = .next t := ⟨by unfold State.storeLaw; decide +kernel, _, rfl⟩

theorem witness_EveryStepKeepsTheStatedSizes :
    let s : State := (terminal.modPort .office fun q => { q with notices := List.replicate 8 ⟨.hold, []⟩ })
    let s : State := { s with pending := [.silenceTimeout .yard] }
    s.bounded ∧ ∃ t, step s = .next t :=
  ⟨⟨by intro p; cases p <;> decide +kernel, by decide +kernel, by decide +kernel, by decide +kernel, by decide +kernel⟩, _, rfl⟩

theorem witness_EveryStepKeepsThePermitLaw :
    let s : State := { running with pending := [.releaseClaim .yard 1 [6, 0, 0]] }
    s.permitLaw ∧ s.rc.claims ≠ [] ∧ ∃ t, step s = .next t :=
  ⟨by unfold State.permitLaw; decide +kernel, by decide +kernel, _, rfl⟩

theorem witness_EveryStepKeepsTheTicketLaw :
    let s : State := { terminal with
      tlr := { terminal.tlr with tickets := List.replicate 12 (ticket .opened) }, pending := [.openTicket .scale 1 [1, 0xC0]] }
    s.phase ≠ .loadMirror ∧ s.ticketLaw ∧ ∃ t, step s = .next t :=
  ⟨by decide, by unfold State.ticketLaw; decide +kernel, _, rfl⟩

theorem witness_StartUpBeginsEveryLinkAfresh :
    ({ terminal with phase := .off } : State).phase = .off ∧ ({ terminal with phase := .resetHeld } : State).phase = .resetHeld
      ∧ (let s : State := { terminal with phase := .restarting }
         s.phase = .restarting ∧ s.rsc.write = none ∧ s.rsc.jobs = [] ∧ s.rsc.queue = []) := by decide +kernel

theorem witness_FrameErrorsSetOnlyTheirFlag :
    terminal.hears .dock = true ∧ (terminal.port .dock).receiver = .hunting ∧ 240 < (241 : Byte).toNat
      ∧ ((0 : Byte).toNat ≤ 240 ∧ ([1, 2, 3] : List Byte).length = (0 : Byte).toNat + 3)
      ∧ ((240 : Byte).toNat ≤ 240 ∧ (List.replicate 243 (0 : Byte)).length = (240 : Byte).toNat + 3)
      ∧ (let s := terminal.modPort .dock fun q => { q with receiver := .inFrame [4] }
         s.hears .dock = true ∧ (s.port .dock).receiver = .inFrame [4])
      ∧ (([240] ++ List.replicate 242 0 : List Byte) = 240 :: List.replicate 242 0 ∧ (240 : Byte).toNat ≤ 240
        ∧ (List.replicate 242 (0 : Byte)).length < (240 : Byte).toNat + 3)
      ∧ ([4] ++ ([9] : List Byte) = 4 :: [9] ∧ ([9] : List Byte).length < (4 : Byte).toNat + 3) := by decide +kernel

theorem witness_RoleAndReadinessAreCheckedInOrder :
    ({ terminal with phase := .off } : State).hears .yard = false
      ∧ (terminal.hears .scale = true ∧ (terminal.port .scale).slot = .empty ∧ Port.scale ∉ ReqKind.closeFeed.stations)
      ∧ (State.reset.hears .yard = true ∧ (State.reset.port .yard).slot = .empty ∧ Port.yard ∈ ReqKind.watch.stations
        ∧ ReqKind.admittedIn .watch State.reset.phase = false)
      ∧ ∀ k : ReqKind, k.code ≠ 0x28 :=
  ⟨by decide +kernel, by decide +kernel, by decide +kernel, by intro k; cases k <;> decide⟩

theorem witness_AnOccupiedSlotCollides :
    let a : Answer := ⟨1, 1, .ok, []⟩
    let acting := withSlot terminal .yard (.acting 1 0x11)
    let answering := withSlot terminal .yard (.answering a none)
    let parked := withSlot terminal .yard (.parked 2 ⟨.bin 6, 41, some 220000⟩)
    (acting.hears .yard = true ∧ (acting.port .yard).slot = .acting 1 0x11)
      ∧ (answering.hears .yard = true ∧ (answering.port .yard).slot = .answering a none)
      ∧ parked.hears .yard = true ∧ (parked.port .yard).slot = .parked 2 ⟨.bin 6, 41, some 220000⟩
      ∧ ReqKind.status ≠ .cancelWatch ∧ (0x01 : Byte) ≠ 0x04 := by decide +kernel

theorem witness_PortResetClearsOnePort :
    let j : ConfigJob := ⟨some .office, 1, 9, []⟩
    (writing .config [j]).hears .office = true ∧ (writing .config [j]).rsc.jobs[0]? = some j
      ∧ ({ terminal with phase := .off } : State).hears .office = false
      ∧ (let s := terminal.modPort .dock fun q => { q with receiver := .inBreak }
         s.live = true ∧ (s.port .dock).receiver = .inBreak) := by decide +kernel

theorem witness_TransmissionsSendAnswersFirst :
    let a : Answer := ⟨1, 1, .ok, []⟩
    let b : Answer := ⟨2, 4, .ok, []⟩
    let n : Notice := ⟨.hold, [1]⟩
    let answering := withSlot terminal .yard (.answering a (some b))
    let noticed := terminal.modPort .yard fun q => { q with notices := [n] }
    (List.replicate 238 (0 : Byte)).length ≤ 238
      ∧ (answering.live = true ∧ (answering.port .yard).receiver = .hunting ∧ (answering.port .yard).tx = none
        ∧ (answering.port .yard).slot = .answering a (some b))
      ∧ ((noticed.port .yard).receiver = .hunting ∧ (noticed.port .yard).tx = none ∧ (noticed.port .yard).slot = .empty
        ∧ (noticed.port .yard).notices = [n])
      ∧ (let s := answering.modPort .yard fun q => { q with tx := some (.answer [1]) }
         (s.port .yard).tx = some (.answer [1]) ∧ (s.port .yard).slot = .answering a (some b) ∧ ¬(a.kind = 0x59 ∧ a.code = .ok))
      ∧ (let s := noticed.modPort .yard fun q => { q with tx := some (.notice [1]) }
         (s.port .yard).tx = some (.notice [1]) ∧ (s.port .yard).notices = [n]) := by decide +kernel

theorem witness_SilenceTripsAndFreesTheStationsClaims :
    running.live = true ∧ (running.port .yard).silent = false ∧ (running.port .yard).timer = some 0
      ∧ (running.rc.claims.map (·.number)).Nodup
      ∧ running.rc.claims.map (fun c => (c.holder, c.state)) = [(.yard, .running (transfer .reject))] := by decide +kernel

theorem witness_WatchParksOrAnswersChanged :
    terminal.accepts .watch .yard
      ∧ (fields [1, 2, 2, 2] ([1, 0, 28, 0, 1, 2, 88] : List Byte) = some [1, 28, 1, 600] ∧ recOf 1 28 = some (.bin 27)
        ∧ terminal.rev (.bin 27) = some 1)
      ∧ (fields [1, 2, 2, 2] ([1, 0, 29, 0, 1, 0, 0] : List Byte) = some [1, 29, 1, 0] ∧ recOf 1 29 = none)
      ∧ (recOf 3 65535 = some (.ticket 65535) ∧ terminal.rev (.ticket 65535) = none) := by
  unfold State.accepts; decide +kernel

theorem witness_WatchesEndOnceOnTheFirstEvent :
    let w : Watch := ⟨.bin 6, 41, some 220000⟩
    let s := withSlot terminal .yard (.parked 2 w)
    let a : Answer := ⟨1, 1, .ok, []⟩
    ((s.port .yard).slot = .parked 2 w ∧ s.rev (.bin 6) = some 1 ∧ w.subject ≠ .bin 7
      ∧ (s.modBin 6 fun b => { b with rev := 65535 }).rev (.bin 6) = some 65535)
    ∧ (s.live = true ∧ w.expiry = some 220000) ∧ terminal.accepts .cancelWatch .yard
    ∧ ((withSlot terminal .yard (.answering a none)).port .yard).slot = .answering a none := by
  unfold State.accepts; decide +kernel

theorem witness_ReadsChangeOnlyTheirPort :
    let position (kind index : Nat) (extra : List Byte) (r : RecRef) : Bool :=
      takeFields [1, 2] (u8 kind ++ u16 index ++ extra) == some ([kind, index], extra) && recOf kind index == some r
    (terminal.accepts .status .dryer ∧ terminal.accepts .readEvents .dryer ∧ terminal.accepts .readRecord .dryer)
    ∧ (fields [4] ([0, 0, 0, 1] : List Byte) = some [1] ∧ ([0, 0, 1] : List Byte).length ≠ 4 ∧ ([1, 0] : List Byte).length < 3)
    ∧ (position 1 1 [] (.bin 0) ∧ 0 < (terminal.bin 0).layers.length ∧ position 1 1 [0] (.bin 0)
      ∧ position 1 1 [1] (.bin 0) ∧ ¬(1 < (terminal.bin 0).layers.length)
      ∧ position 1 2 [0] (.bin 1) ∧ (terminal.bin 1).layers.map Layer.entry = [] ∧ position 2 2 [] (.pit 1))
    ∧ (position 6 0 [1] .batchList ∧ (drying .drying).accepts .readRecord .dryer ∧ (drying .drying).dru.batches.length = 1)
    ∧ (position 7 0 [1] .berth ∧ terminal.btu.state = .empty ∧ position 7 0 [5] .berth ∧ position 7 0 [6] .berth
      ∧ position 7 0 [0] .berth ∧ loading.accepts .readRecord .dock ∧ loading.btu.holds.length = 5)
    ∧ (position 8 20 [] (.segment 19) ∧ position 8 20 [0] (.segment 19) ∧ recOf 8 21 = none
      ∧ position 5 6 [] (.claim 6) ∧ (claimed.claim 6).isSome = true ∧ terminal.claim 6 = none
      ∧ position 3 3117 [] (.ticket 3117) ∧ position 4 65535 [] (.lot 65535))
    ∧ 2 ≤ ([0, 0] : List Byte).length := by
  unfold State.accepts; decide +kernel

theorem witness_SamplesSetTheBridgeAndTrackTheZero :
    let s (counts offset : Int) : State := { terminal with wbu :=
      { terminal.wbu with wsi := .shifting 24, window := List.replicate 15 0, trackOffset := offset, latest := some counts } }
    let z := s 0 0
    terminal.live = true ∧ terminal.wbu.wsi = .aligning
      ∧ (z.wbu.wsi = .shifting 24 ∧ z.cfg.scale = some scaleCfg ∧ z.wbu.capture = none ∧ z.wbu.zeroDrift = false)
      ∧ ({ z with cfg := Cfg.none } : State).cfg.scale = none
      ∧ (Int.tdiv ((512 : Int) * 1280) 65536 = 10 ∧ 2 * (10 : Int).natAbs ≤ scaleCfg.division)
      ∧ ((163840 * scaleCfg.span : Int)).natAbs * 100 = scaleCfg.capacity * 4 * 65536
      ∧ scaleCfg.capacity * 4 * 65536 < ((163841 * scaleCfg.span : Int)).natAbs * 100
      ∧ 0 < scaleCfg.division := by decide +kernel

theorem witness_ZeroBridgeTakesTheFirstLineThatApplies :
    let busy : State := { terminal with wbu := { terminal.wbu with capture := some ⟨.scale, .gross, 3117, 5000⟩ } }
    (busy.accepts .zeroBridge .office ∧ busy.wbu.capture.isSome = true)
      ∧ (terminal.accepts .zeroBridge .scale ∧ terminal.wbu.capture = none ∧ terminal.wbu.bridge ≠ .stable)
      ∧ (let s := weighing .stable 81920
         s.accepts .zeroBridge .scale ∧ s.wbu.capture = none ∧ s.wbu.bridge = .stable
           ∧ ((81920 : Int) * scaleCfg.span).natAbs * 100 = scaleCfg.capacity * 2 * 65536)
      ∧ (let s := weighing .stable 81921
         s.accepts .zeroBridge .scale ∧ scaleCfg.capacity * 2 * 65536 < ((81921 : Int) * scaleCfg.span).natAbs * 100) := by
  unfold State.accepts; decide +kernel

theorem witness_TheStalenessTimerMakesTheBridgeStale :
    let cap : Capture := ⟨.scale, .gross, 3117, 5000⟩
    let s := withSlot { weighing .motion 0 with wbu := { (weighing .motion 0).wbu with capture := some cap } } .scale (.acting 1 0x11)
    (s.live = true ∧ s.wbu.timer = some 0 ∧ s.wbu.bridge ≠ .stale ∧ s.wbu.capture = some cap
      ∧ (s.port .scale).slot = .acting 1 0x11)
    ∧ ((weighing .stale 0).wbu.timer = some 0 ∧ (weighing .stale 0).wbu.bridge = .stale) := by decide +kernel

theorem witness_PendingCapturesEndOnTheirLines :
    let cap : Capture := ⟨.scale, .gross, 3117, 5000⟩
    let w : Wbu := { (weighing .motion 0).wbu with capture := some cap, wsi := .shifting 24 }
    let s := withSlot { terminal with wbu := w } .scale (.acting 1 0x11)
    (s.live = true ∧ s.wbu.capture = some cap ∧ (s.port .scale).slot = .acting 1 0x11 ∧ s.wbu.wsi = .shifting 24
      ∧ s.cfg.scale = some scaleCfg)
    ∧ ({ s.wbu with wsi := .aligning }.weigh scaleCfg (BitVec.toInt (0x480000 : SampleWord)) 0).bridge = .overload
    ∧ ({ s.wbu with wsi := .aligning }.weigh scaleCfg (BitVec.toInt (0xC00000 : SampleWord)) 0).bridge = .underload
    ∧ ({ s.wbu with wsi := .aligning }.weigh scaleCfg (BitVec.toInt (0x001000 : SampleWord)) 0).bridge = .motion := by
  decide +kernel

/-- The scale still at some counts with a capture pending for ticket 3117, which stands in a state. -/
def capturing (kind : CaptureKind) (state : TicketState) (counts : Nat) : State :=
  let s := withTicket (weighing .motion counts) state
  let s := { s with wbu := { s.wbu with capture := some ⟨.scale, kind, 3117, 5000⟩, wsi := .shifting 24 } }
  (withSlot s .scale (.acting 1 0x11)).modPit 1 fun b => { b with state := .receiving 3117 }

/-- The bridge and the displayed mass of that state after a sample of the same counts. -/
def captured (s : State) (counts : Nat) : Bridge × Int :=
  let w := { s.wbu with wsi := .aligning }.weigh scaleCfg (BitVec.toInt (BitVec.ofNat 24 counts : SampleWord)) s.ms
  (w.bridge, ({ s with wbu := { w with capture := none } } : State).bridgeMass)

theorem witness_PendingCapturesEndOnTheirLines_at_a_stable_sample :
    let g := capturing .gross .opened 20480
    let t := capturing .tare .dumped 743988
    (g.live = true ∧ g.wbu.capture = some ⟨.scale, .gross, 3117, 5000⟩ ∧ (g.port .scale).slot = .acting 1 0x11
      ∧ captured g 20480 = (Bridge.stable, 20 * (scaleCfg.division : Int)) ∧ g.ticket 3117 = some (ticket .opened))
    ∧ captured (capturing .gross .opened 19900) 19900 = (Bridge.stable, 380)
    ∧ (t.live = true ∧ t.wbu.capture = some ⟨.scale, .tare, 3117, 5000⟩ ∧ captured t 743988 = (Bridge.stable, 14540)
      ∧ t.ticket 3117 = some (ticket .dumped) ∧ (ticket .dumped).gross = some ⟨41880, 0⟩ ∧ (ticket .dumped).pit = some 1
      ∧ (t.pit 1).state = .receiving 3117)
    ∧ captured (capturing .tare .dumped 2143898) 2143898 = (Bridge.stable, 41880)
    ∧ captured (capturing .tare .dumped 2145024) 2145024 = (Bridge.stable, 41900) := by decide +kernel

theorem witness_IssuedNumbersAreFreshAndInRange :
    ([255, 1, 2] : List Nat).length < 255 ∧ issueNumber 255 [255, 1, 2] 254 = 3 ∧ ([] : List Nat).length < 1 := by decide

theorem witness_OpenTicketEntersATicketOrIsRefused :
    let full (n : Nat) : State := { terminal with tlr := { terminal.tlr with tickets := List.replicate n (ticket .opened) } }
    terminal.accepts .openTicket .scale ∧ takeFields [1] ([1, 0xC1, 0x41] : List Byte) = some ([1], [0xC1, 0x41])
      ∧ takeText [0xC1, 0x41] = some ([0x41], []) ∧ terminal.isConfigured 1 = true ∧ terminal.isConfigured 8 = false
      ∧ ((full 12).accepts .openTicket .scale ∧ (full 12).isConfigured 1 = true ∧ 12 ≤ (full 12).tlr.tickets.length)
      ∧ ((full 11).accepts .openTicket .scale ∧ (full 11).tlr.tickets.length < 12
        ∧ (full 11).tlr.tickets.length < 400 - (full 11).tlr.lots.length) := by
  unfold State.accepts; decide +kernel

theorem witness_CaptureGrossWeighsInOrWaits :
    let s (b : Bridge) (counts : Int) (x : TicketState) := withTicket (weighing b counts) x
    let busy (x : TicketState) : State := { s .motion 0 x with wbu := { (s .motion 0 x).wbu with capture := some ⟨.dock, .gross, 1, 5000⟩ } }
    let drifted (x : TicketState) : State := { s .stable 20480 x with wbu := { (s .stable 20480 x).wbu with zeroDrift := true } }
    (fields [2, 2] (u16 3117 ++ u16 5) = some [3117, 5] ∧ fields [2, 2] (u16 3117 ++ u16 0) = some [3117, 0]
      ∧ ∀ x : TicketState, (x = .opened ∨ x = .dumped) → (ticket x).state = x ∧ (ticket x).rev = 5
        ∧ (s .stable 20480 x).ticket 3117 = some (ticket x) ∧ (busy x).ticket 3117 = some (ticket x)
        ∧ (busy x).wbu.capture.isSome = true ∧ (drifted x).wbu.capture = none ∧ (drifted x).wbu.zeroDrift = true
        ∧ (s .motion 0 x).wbu.bridge = .motion ∧ (s .overload 0 x).wbu.bridge = .overload
        ∧ (s .stable 20480 x).wbu.capture = none ∧ (s .stable 20480 x).wbu.zeroDrift = false
        ∧ (s .stable 19900 x).wbu.bridge = .stable ∧ (s .stable 19900 x).bridgeMass < 20 * (scaleCfg.division : Int))
    ∧ (busy .opened).accepts .captureGross .scale ∧ (busy .dumped).accepts .captureTare .office
    ∧ (s .stable 20480 .opened).accepts .captureGross .scale
    ∧ (s .stable 20480 .opened).bridgeMass = 20 * (scaleCfg.division : Int) := by
  refine ⟨⟨by decide +kernel, by decide +kernel, ?_⟩, ?_⟩
  · rintro x (rfl | rfl) <;> decide +kernel
  · unfold State.accepts; decide +kernel

theorem witness_EnterSampleRecordsUpTo350 :
    let s := withTicket terminal .weighedIn
    s.accepts .enterSample .office ∧ fields [2, 2, 2, 1] (u16 3117 ++ u16 0 ++ u16 351 ++ u8 5) = some [3117, 0, 351, 5]
      ∧ s.ticket 3117 = some (ticket .weighedIn) ∧ (ticket .weighedIn).state = .weighedIn
      ∧ fields [2, 2, 2, 1] (u16 3117 ++ u16 5 ++ u16 350 ++ u8 6) = some [3117, 5, 350, 6]
      ∧ (let d := withTicket terminal .dumped
         d.accepts .enterSample .office ∧ d.ticket 3117 = some (ticket .dumped) ∧ (ticket .dumped).state ≠ .weighedIn
           ∧ (ticket .dumped).state ≠ .sampled) := by
  unfold State.accepts; decide +kernel

theorem witness_TicketsTakeAPitReportDumpedOrAreVoided :
    let s (x : TicketState) := withTicket terminal x
    ((s .sampled).accepts .assignPit .scale ∧ fields [2, 2, 1] (u16 3117 ++ u16 0 ++ u8 2) = some [3117, 0, 2]
      ∧ (s .sampled).ticket 3117 = some (ticket .sampled) ∧ (ticket .sampled).state = .sampled
      ∧ ((s .sampled).pit 1).unverified = false ∧ ((s .sampled).pit 1).state = .empty
      ∧ ((terminal.modPit 1 fun b => { b with unverified := true }).pit 1).unverified = true
      ∧ ((terminal.modPit 1 fun b => { b with state := .loaded }).pit 1).state ≠ .empty)
    ∧ ((s .assigned).accepts .reportDumped .scale ∧ fields [2, 2] (u16 3117 ++ u16 5) = some [3117, 5]
      ∧ (s .assigned).ticket 3117 = some (ticket .assigned) ∧ (ticket .assigned).state = .assigned
      ∧ (ticket .assigned).pit = some 1)
    ∧ ((s .dumped).accepts .voidTicket .scale ∧ (s .dumped).ticket 3117 = some (ticket .dumped)
      ∧ (s .dumped).wbu.capture = none)
    ∧ (s .opened).accepts .voidTicket .scale := by
  unfold State.accepts; decide +kernel

theorem witness_TheTareClosesTheTicketIntoALot :
    let s (counts : Int) := (withTicket (weighing .stable counts) .dumped).modPit 1 fun b => { b with state := .receiving 3117 }
    ((s 743988).accepts .captureTare .scale ∧ (s 743988).ticket 3117 = some (ticket .dumped)
      ∧ (ticket .dumped).gross = some ⟨41880, 0⟩ ∧ (ticket .dumped).pit = some 1 ∧ ((s 743988).pit 1).state = .receiving 3117
      ∧ (s 743988).wbu.capture = none ∧ (s 743988).wbu.zeroDrift = false ∧ (s 743988).wbu.bridge = .stable
      ∧ 20 * (scaleCfg.division : Int) ≤ (s 743988).bridgeMass)
    ∧ ((s 2143898).accepts .captureTare .scale ∧ (s 2143898).bridgeMass.toNat = 41880)
    ∧ ((s 2145024).accepts .captureTare .scale ∧ 41880 < (s 2145024).bridgeMass.toNat) := by
  unfold State.accepts; decide +kernel

theorem witness_StandardMassAndShrinksAccountForTheNet :
    (corn.base ≤ 300 ∧ corn.handling ≤ 100 ∧ 151 ≤ 350 ∧ 5 ≤ 5 ∧ corn.configured = true ∧ corn.base < 151)
      ∧ ((150 : Nat) ≤ corn.base) ∧ (⟨[], 300, 300, 100, true⟩ : Commodity).base ≤ 300 ∧ (300 : Nat) < 350 := by decide

theorem witness_ARescaleNeverRaisesATargetAndFitsTheCeiling :
    let plan : List (Nat × Nat) := [(200, 200), (300, 100)]
    plan[1]? = some (300, 100) ∧ (rescale 400 plan)[1]? = some 200 ∧ (plan.map (·.2)).sum ≤ 400
      ∧ ((plan.filter fun h => h.2 < h.1).map fun h => h.1 - h.2).sum ≤ 500 - (plan.map (·.2)).sum := by decide +kernel

/-- R81: 6,000 kg out of two layers of 5,000 takes the bottom one whole and 1,000 of the next. -/
theorem witness_ReleasesDrawFromTheBottomAndKeepTheMass :
    let d := drawLayers (some 1) 6000 [layer, { layer with number := 2, moisture := 150 }]
    d.parts.map (fun x => (x.mass, x.moisture)) = [(5000, 140), (1000, 150)] ∧ d.exhausted = [layer]
      ∧ d.rest.map (·.mass) = [4000] := by decide +kernel

theorem witness_HoldsTripWhatTheyForbidAndLiftByTheirRules :
    let held (h : Hold) : State := terminal.modBin 27 fun b => { b with hold := some h }
    (terminal.accepts .placeHold .scale ∧ fields [1, 2, 1] ([28, 0, 1, 2] : List Byte) = some [28, 1, 2]
      ∧ HoldLevel.strict.code = 2 ∧ (terminal.bin 27).rev = 1 ∧ (terminal.bin 27).hold = none)
    ∧ ((held ⟨.strict, .office⟩).accepts .placeHold .scale ∧ ((held ⟨.strict, .office⟩).bin 27).hold = some ⟨.strict, .office⟩)
    ∧ ((held ⟨.standard, .scale⟩).accepts .placeHold .office
      ∧ ((held ⟨.standard, .scale⟩).bin 27).hold = some ⟨.standard, .scale⟩)
    ∧ (running.accepts .placeHold .scale ∧ (running.rc.claims.map (·.number)).Nodup ∧ (running.bin 0).hold = none) := by
  unfold State.accepts; decide +kernel

theorem witness_HoldsTripWhatTheyForbidAndLiftByTheirRules_lift :
    let held (h : Hold) : State := terminal.modBin 27 fun b => { b with hold := some h }
    (terminal.accepts .releaseHold .scale ∧ fields [1, 2] ([29, 0, 0] : List Byte) = some [29, 0]
      ∧ fields [1, 2] ([28, 0, 2] : List Byte) = some [28, 2] ∧ (terminal.bin 27).rev = 1 ∧ (terminal.bin 27).hold = none)
    ∧ ((held ⟨.strict, .scale⟩).accepts .releaseHold .office ∧ ((held ⟨.strict, .scale⟩).bin 27).hold = some ⟨.strict, .scale⟩)
    ∧ ((held ⟨.standard, .office⟩).accepts .releaseHold .scale
      ∧ ((held ⟨.standard, .office⟩).bin 27).hold = some ⟨.standard, .office⟩)
    ∧ ((held ⟨.standard, .scale⟩).accepts .releaseHold .scale
      ∧ ((held ⟨.standard, .scale⟩).bin 27).hold = some ⟨.standard, .scale⟩) := by
  unfold State.accepts; decide +kernel

theorem witness_CeilingsAreSetLockedAndFrozen :
    let frozen : State := { terminal with inv := { terminal.inv with frozen := true } }
    let locked : State := terminal.modBin 0 fun b => { b with locked := true }
    (terminal.accepts .setCeiling .yard ∧ fields [1, 2, 4, 1] (1 :: u16 1 ++ u32 5000 ++ [1]) = some [1, 1, 5000, 1]
      ∧ fields [1, 2, 4, 1] (1 :: u16 2 ++ u32 5000 ++ [2]) = some [1, 2, 5000, 2]
      ∧ (terminal.bin 0).rev = 1 ∧ (terminal.bin 0).mass = 5000 ∧ (terminal.bin 0).locked = false
      ∧ (terminal.bin 0).ceiling = 1000000 ∧ (terminal.bin 0).retained = false ∧ (terminal.bin 0).inbound = none)
    ∧ (frozen.accepts .setCeiling .office ∧ frozen.inv.frozen = true)
    ∧ (locked.accepts .setCeiling .office ∧ locked.inv.frozen = false ∧ (locked.bin 0).locked = true) := by
  unfold State.accepts; decide +kernel

theorem witness_CeilingsAreSetLockedAndFrozen_lock :
    let frozen : State := { terminal with inv := { terminal.inv with frozen := true } }
    (terminal.accepts .lockCeiling .office ∧ terminal.accepts .unlockCeiling .office ∧ terminal.accepts .freezeCeilings .office
      ∧ fields [1, 2] ([28, 0, 1] : List Byte) = some [28, 1] ∧ (terminal.bin 27).rev = 1 ∧ terminal.inv.frozen = false
      ∧ (terminal.bin 27).locked = false)
    ∧ (frozen.accepts .lockCeiling .office ∧ frozen.inv.frozen = true) := by
  unfold State.accepts; decide +kernel

theorem witness_AdjustMassSetsTheMassAndBooksTheDifference :
    let full : Adjustment := ⟨1, 28, 1, 2000000, some ⟨1, 350, 5⟩⟩
    let down : Adjustment := ⟨1, 1, 0, 1, none⟩
    let pit : Adjustment := ⟨2, 2, 1, 40000, some ⟨1, 0, 1⟩⟩
    terminal.accepts .adjustMass .office
      ∧ (parseAdjust ([1, 28] ++ u16 1 ++ u32 2000000 ++ [1, 1] ++ u16 350 ++ [5]) = some full
        ∧ full.mass = 2 * (terminal.bin 27).capacity ∧ (terminal.bin 27).rev = 1 ∧ (terminal.bin 27).inbound = none
        ∧ (terminal.bin 27).outbound = none
        ∧ terminal.adjustable full (terminal.bin 27).layers (terminal.bin 27).unverified = true)
      ∧ (parseAdjust ([1, 1] ++ u16 0 ++ u32 1 ++ [0]) = some down
        ∧ terminal.adjustable down (terminal.bin 0).layers (terminal.bin 0).unverified = true)
      ∧ (parseAdjust ([2, 2] ++ u16 1 ++ u32 40000 ++ [1, 1] ++ u16 0 ++ [1]) = some pit
        ∧ pit.mass = 2 * (terminal.pit 1).capacity ∧ (terminal.pit 1).rev = 1 ∧ (terminal.pit 1).outbound = none
        ∧ (terminal.pit 1).state.isReceiving = false
        ∧ terminal.adjustable pit (terminal.pit 1).layers (terminal.pit 1).unverified = true
        ∧ (terminal.pit 1).layer = none)
      ∧ (let s := terminal.modPit 1 fun b => { b with state := .loaded, commodity := some 1, layer := some layer }
         let gone : Adjustment := ⟨2, 2, 0, 0, none⟩
         s.accepts .adjustMass .office ∧ parseAdjust ([2, 2] ++ u16 0 ++ u32 0 ++ [0]) = some gone
           ∧ s.adjustable gone (s.pit 1).layers (s.pit 1).unverified = true ∧ (s.pit 1).layer = some layer ∧ 0 < layer.mass) := by
  unfold State.accepts; decide +kernel

theorem witness_AcceptBalanceMakesTheLawHold :
    let bad : State := terminal.modPit 1 fun b => { b with unverified := true }
    terminal.accepts .acceptBalance .office ∧ fields [1] ([0] : List Byte) = some [0] ∧ fields [1] ([2] : List Byte) = some [2]
      ∧ fields [1] ([1] : List Byte) = some [1]
      ∧ ¬((∃ i, (terminal.bin i).unverified = true) ∨ ∃ i, (terminal.pit i).unverified = true)
      ∧ (bad.accepts .acceptBalance .office ∧ (bad.pit 1).unverified = true) := by
  unfold State.accepts; decide +kernel

/-- B01 under a STRICT hold, RUNNING to REJECT. -/
def heldRunning : State := running.modBin 0 fun b => { b with hold := some ⟨.strict, .office⟩ }

theorem witness_EveryStepKeepsTheHoldLaw :
    let s : State := { heldRunning with pending := [.reportMass .yard 1 (6 :: u16 3 ++ u16 9 ++ u32 200)] }
    s.permitLaw ∧ s.holdLaw ∧ (s.bin 0).hold = some ⟨.strict, .office⟩ ∧ ∃ t, step s = .next t := by
  refine ⟨by unfold State.permitLaw; decide +kernel, ?_, by decide +kernel, _, rfl⟩
  intro c hc x hx i _
  have hc : c = ⟨6, .yard, 2, .running (transfer .reject), 3⟩ := by simpa [heldRunning, running, withClaim, State.modBin] using hc
  subst hc
  cases hx
  exact ⟨(by intro h; exact absurd h (by simp [transfer])), fun _ => rfl⟩

/-- Route 1 of the small terminal. -/
def route1 : Route := ⟨1, .pit 0, .bin 0, [0, 1], [.yard, .office], 500, 30⟩

theorem witness_ClaimRouteTakesEverySegmentOrNone :
    terminal.accepts .claimRoute .yard ∧ fields [1] ([41] : List Byte) = some [41] ∧ terminal.route 4 = none
      ∧ fields [1] ([1] : List Byte) = some [1] ∧ terminal.route 1 = some route1 ∧ route1.segments.Nodup
      ∧ Port.yard ∈ route1.stations ∧ terminal.rc.claims.length < 8 ∧ (∀ i ∈ route1.segments, (terminal.seg i).state = .free)
      ∧ fields [1] ([40] : List Byte) = some [40] ∧ (terminal.route 40).map (·.segments) = some [18, 19] := by
  unfold State.accepts; decide +kernel

theorem witness_ClaimRouteTakesEverySegmentOrNone_refusals :
    let faulted : State := terminal.modSeg 1 fun x => { x with state := .faulted }
    let full : State := { terminal with rc :=
      { terminal.rc with claims := (List.range 8).map fun k => ⟨k + 10, .dock, 5, .claimed, 1⟩ } }
    (terminal.accepts .claimRoute .dryer ∧ Port.dryer ∉ route1.stations)
    ∧ (full.accepts .claimRoute .yard ∧ 8 ≤ full.rc.claims.length)
    ∧ (faulted.accepts .claimRoute .yard ∧ 1 ∈ route1.segments ∧ (faulted.seg 1).state = .faulted)
    ∧ (claimed.accepts .claimRoute .office ∧ route1.segments = [] ++ 0 :: [1] ∧ (claimed.seg 0).state = .held 6
      ∧ claimed.claim 6 = some ⟨6, .yard, 1, .claimed, 1⟩ ∧ (claimed.seg 1).state ≠ .faulted) := by
  unfold State.accepts; decide +kernel

theorem witness_StartTransferRunsTheClaim :
    let c : Claim := ⟨6, .yard, 2, .claimed, 3⟩
    let r : Route := ⟨2, .bin 0, .reject, [2], [.yard, .office], 0, 10⟩
    let s := withClaim terminal c
    let empty : State := s.modBin 0 fun b => { b with layers := [] }
    (s.accepts .startTransfer .yard ∧ fields [1, 2, 4, 1] (6 :: u16 3 ++ u32 0 ++ [0]) = some [6, 3, 0, 0] ∧ s.claim 6 = some c
      ∧ s.route 2 = some r)
    -- no line applies: the bin has a layer, no hold, no doubt and no claim, and REJECT asks for nothing
    ∧ (c.holder = .yard ∧ c.state = .claimed ∧ r.dest ≠ .berth ∧ r.dest ≠ .dryer ∧ r.source ≠ r.dest
      ∧ (s.bin 0).unverified = false ∧ (s.bin 0).layers = [layer] ∧ (s.bin 0).hold = none ∧ s.commodityOf .reject = none
      ∧ s.inboundOf .reject = none ∧ s.outboundOf (.bin 0) = none)
    -- the first line, the second, the fourth and the sixth
    ∧ (s.accepts .startTransfer .office ∧ c.holder ≠ .office)
    ∧ (running.accepts .startTransfer .yard ∧ (running.claim 6).map (·.holder) = some .yard
      ∧ (running.claim 6).map (·.state) ≠ some .claimed)
    ∧ fields [1, 2, 4, 1] (6 :: u16 3 ++ u32 0 ++ [1]) = some [6, 3, 0, 1]
    ∧ (empty.accepts .startTransfer .yard ∧ empty.claim 6 = some c ∧ (empty.bin 0).layers = []) := by
  unfold State.accepts; decide +kernel

/-- Claim 6 of Yard on route 1 with P1 loaded, and the ends of the last line: with a drain allowance of 500, a mass of
500 is refused NO_ROOM and one of 501 runs. -/
theorem witness_StartTransferRunsTheClaim_allowances :
    let s := claimed.modPit 0 fun b => { b with state := .loaded, commodity := some 1, layer := some layer }
    (s.accepts .startTransfer .yard ∧ s.claim 6 = some ⟨6, .yard, 1, .claimed, 1⟩ ∧ s.route 1 = some route1
      ∧ (s.pit 0).unverified = false ∧ (s.bin 0).unverified = false ∧ (s.bin 0).hold = none ∧ (s.bin 0).level = .normal
      ∧ s.commodityOf (.bin 0) = s.commodityOf (.pit 0) ∧ s.isConfigured 1 = true
      ∧ layer.moisture ≤ (s.commodity 1).safeMoisture ∧ (s.bin 0).inbound = none ∧ (s.pit 0).outbound = none)
    ∧ codeAt .yard (exec (.startTransfer .yard 1 (6 :: u16 1 ++ u32 500 ++ [0])) s) = some .noRoom
    ∧ codeAt .yard (exec (.startTransfer .yard 1 (6 :: u16 1 ++ u32 501 ++ [0])) s) = some .ok := by
  unfold State.accepts; decide +kernel

theorem witness_ReportMassMovesExactlyWhatTheSourceReleases :
    let c : Claim := ⟨6, .yard, 2, .running (transfer .reject), 3⟩
    (running.accepts .reportMass .yard ∧ fields [1, 2, 2, 4] (6 :: u16 3 ++ u16 9 ++ u32 101) = some [6, 3, 9, 101]
      ∧ running.claimOfTransfer 9 = some (c, transfer .reject) ∧ running.claim 6 = some c ∧ c.holder = .yard
      ∧ (running.rc.claims.map (·.number)).Nodup ∧ (transfer .reject).reported = 100
      ∧ (transfer .reject).source = .bin 0 ∧ (transfer .reject).dest = .reject ∧ (running.bin 0).unverified = false
      ∧ (running.dru.batches.filter fun b => b.state == .filling).length ≤ 1)
    ∧ fields [1, 2, 2, 4] (6 :: u16 0 ++ u16 9 ++ u32 99) = some [6, 0, 9, 99]
    ∧ fields [1, 2, 2, 4] (6 :: u16 0 ++ u16 9 ++ u32 100) = some [6, 0, 9, 100]
    ∧ fields [1, 2, 2, 4] (6 :: u16 0 ++ u16 9 ++ u32 5101) = some [6, 0, 9, 5101]
    ∧ (let x := transfer (.bin 0)
       let s := withClaim terminal ⟨6, .yard, 2, .draining x 10000, 3⟩
       s.accepts .reportMass .yard ∧ s.claimOfTransfer 9 = some (⟨6, .yard, 2, .draining x 10000, 3⟩, x) ∧ x.source = x.dest
         ∧ x.source ≠ .dryer ∧ ((s.bin 0).layers.map (·.number)).Nodup)
    ∧ (let x := transfer .berth
       let s := withClaim loading ⟨6, .dock, 5, .running x, 3⟩
       s.accepts .reportMass .dock ∧ s.claimOfTransfer 9 = some (⟨6, .dock, 5, .running x, 3⟩, x)
         ∧ 1 ≤ x.bargeHold ∧ x.bargeHold ≤ s.btu.holds.length) := by
  unfold State.accepts; decide +kernel

theorem witness_DrainExpiryClosesTheTransfer :
    draining.live = true ∧ draining.claim 6 = some ⟨6, .yard, 2, .draining (transfer .reject) 10000, 3⟩
      ∧ (draining.seg 2).state = .held 6 := by decide +kernel

theorem witness_ReleaseClaimFreesTripsOrLeaves :
    (claimed.accepts .releaseClaim .yard ∧ fields [1, 2] ([6, 0, 1] : List Byte) = some [6, 1]
      ∧ claimed.claim 6 = some ⟨6, .yard, 1, .claimed, 1⟩)
    ∧ (running.accepts .releaseClaim .office ∧ running.claim 6 = some ⟨6, .yard, 2, .running (transfer .reject), 3⟩)
    ∧ running.accepts .releaseClaim .dock
    ∧ (draining.accepts .releaseClaim .yard ∧ draining.claim 6 = some ⟨6, .yard, 2, .draining (transfer .reject) 10000, 3⟩) := by
  unfold State.accepts; decide +kernel

theorem witness_MotionReportsFaultAnUnheldSegment :
    let faulted : State := terminal.modSeg 19 fun x => { x with state := .faulted }
    let moving : State := terminal.modSeg 19 fun x => { x with state := .faulted, running := true }
    (terminal.accepts .reportSegmentMotion .yard ∧ fields [1, 2, 1] ([20, 0, 1, 1] : List Byte) = some [20, 1, 1]
      ∧ fields [1, 2, 1] ([20, 0, 0, 0] : List Byte) = some [20, 0, 0] ∧ (terminal.seg 19).rev = 1
      ∧ (terminal.seg 19).state = .free)
    ∧ (running.accepts .reportSegmentMotion .yard ∧ running.segMoves 2 = true)
    ∧ (claimed.accepts .reportSegmentMotion .yard ∧ (claimed.seg 0).state = .held 6
      ∧ claimed.claim 6 = some ⟨6, .yard, 1, .claimed, 1⟩)
    ∧ (faulted.accepts .clearSegmentFault .office ∧ fields [1, 2] ([20, 0, 1] : List Byte) = some [20, 1]
      ∧ (faulted.seg 19).state = .faulted ∧ (faulted.seg 19).running = false)
    ∧ (moving.accepts .clearSegmentFault .office ∧ (moving.seg 19).running = true)
    ∧ (terminal.accepts .clearSegmentFault .office ∧ (terminal.seg 19).state ≠ .faulted) := by
  unfold State.accepts; decide +kernel

theorem witness_CloseFeedClosesTheFillingBatch :
    let s := drying .filling
    let fed : State := { s with rc := { s.rc with dryerIn := some 6 } }
    let none_ : State := { s with dru := { s.dru with batches := [{ batch .filling with inMass := 0 }] } }
    (s.accepts .closeFeed .dryer ∧ fields [2] (u16 215) = some [215] ∧ fields [2] (u16 214) = some [214] ∧ s.dru.rev = 215
      ∧ s.rc.dryerIn = none ∧ s.dru.batches = [] ++ batch .filling :: [] ∧ (batch .filling).state = .filling)
    ∧ (fed.accepts .closeFeed .office ∧ fed.rc.dryerIn = some 6)
    ∧ ((drying .drying).accepts .closeFeed .dryer ∧ ∀ b ∈ (drying .drying).dru.batches, b.state ≠ .filling)
    ∧ (none_.accepts .closeFeed .dryer ∧ none_.dru.batches = [] ++ { batch .filling with inMass := 0 } :: []) := by
  unfold State.accepts; decide +kernel

theorem witness_ReportBatchOutBooksTheDryingLoss :
    let s := drying .drying
    (s.accepts .reportBatchOut .dryer ∧ fields [2, 4, 2] (u16 215 ++ u32 27340 ++ u16 351) = some [215, 27340, 351]
      ∧ s.dru.rev = 215 ∧ s.dru.batches = [] ++ batch .drying :: [] ∧ (batch .drying).state = .drying
      ∧ (batch .drying).inMass = 27340 ∧ s.rc.claims = [])
    ∧ fields [2, 4, 2] (u16 0 ++ u32 27341 ++ u16 150) = some [0, 27341, 150]
    ∧ fields [2, 4, 2] (u16 0 ++ u32 25772 ++ u16 150) = some [0, 25772, 150]
    ∧ fields [2, 4, 2] (u16 0 ++ u32 25771 ++ u16 150) = some [0, 25771, 150]
    ∧ fields [2, 4, 2] (u16 1 ++ u32 0 ++ u16 150) = some [1, 0, 150]
    ∧ ((drying .filling).accepts .reportBatchOut .office ∧ ∀ b ∈ (drying .filling).dru.batches, b.state ≠ .drying) := by
  unfold State.accepts; decide +kernel

theorem witness_SurveysStartAndAbort :
    (terminal.accepts .startSurvey .yard ∧ parseSurvey ([1, 28, 28] : List Byte) = some [(27, 27)]
      ∧ parseSurvey ([1, 2, 1] : List Byte) = none ∧ terminal.cdm.survey = none ∧ terminal.scopeNodes [(27, 27)] = [])
    ∧ (cabled.accepts .startSurvey .yard ∧ parseSurvey ([0] : List Byte) = some [] ∧ cabled.cdm.survey = none
      ∧ cabled.scopeNodes [] = 0x10 :: [0x6F])
    ∧ ((surveying surveyRun none).accepts .startSurvey .office ∧ (surveying surveyRun none).accepts .abortSurvey .office
      ∧ (surveying surveyRun none).cdm.survey = some surveyRun)
    ∧ (terminal.accepts .abortSurvey .yard) := by
  unfold State.accepts; decide +kernel

theorem witness_ThePollCycleTakesTheBusFirst :
    let at_ (poll : PollStage) (bus : Option BusTx) (w v : Option BusCommand) : State :=
      { cabled with cdm := { cabled.cdm with poll := poll, bus := bus, pollWait := w, surveyWait := v } }
    let inSurvey : State := surveying surveyRun none
    (cabled.live = true ∧ cabled.cdm.pollDue = some 5000 ∧ cabled.cfg.cables = none ∧ cabled.cdm.poll = .idle)
    ∧ (at_ .converting none none none).cdm.poll ≠ .idle
    ∧ ((at_ .converting (some ⟨.poll, .convert⟩) none none).cdm.bus = some ⟨.poll, .convert⟩
      ∧ ((at_ .converting (some ⟨.poll, .convert⟩) none none).cdm.nodes.map (·.addr)).Nodup)
    ∧ ((at_ .converting none (some .convert) (some (.selfCheck 0x10))).cdm.pollWait = some .convert)
    ∧ ((at_ .idle none none (some (.selfCheck 0x10))).cdm.pollWait = none
      ∧ (at_ .idle none none (some (.selfCheck 0x10))).cdm.surveyWait = some (.selfCheck 0x10))
    ∧ ((at_ (.waiting 750) none none none).cdm.poll = .waiting 750
      ∧ (∀ n ∈ cabled.cdm.nodes, 0x10 ≤ n.addr ∧ n.addr ≤ 0x6F) ∧ (0x10 ∉ cabled.scope)
      ∧ (∃ n ∈ cabled.cdm.nodes, n.addr = 0x10) ∧ ∀ n ∈ cabled.cdm.nodes, n.addr ∉ cabled.scope → 0x10 ≤ n.addr)
    ∧ (∀ n ∈ inSurvey.cdm.nodes, n.addr ∈ inSurvey.scope) := by decide +kernel

theorem witness_RepliesAreStoredOrCounted :
    let s (o : BusOwner) : State := { cabled with cdm := { cabled.cdm with
      bus := some ⟨o, .readPoints 0x10⟩, poll := .reading 0x10 [0x6F] } }
    ((s .orphan).live = true ∧ (s .orphan).cdm.bus = some ⟨.orphan, .readPoints 0x10⟩
      ∧ ((s .orphan).cdm.nodes.map (·.addr)).Nodup)
    ∧ ((s .poll).cdm.poll = .reading 0x10 ([] ++ 0x6F :: []) ∧ 0x6F ∉ (s .poll).scope)
    ∧ (some ([25, 25, 25, 25, 25, 25, 25, 0x82, 0xBF] : List Byte) = some ([25, 25, 25, 25, 25, 25, 25, 0x82] ++ [0xBF])
      ∧ BitVec.ofNat 8 0x10 + sumBytes [25, 25, 25, 25, 25, 25, 25, 0x82] + 0xBF = 0)
    ∧ (surveying surveyRun (some ⟨.survey, .selfCheck 0x10⟩)).cdm.bus = some ⟨.survey, .selfCheck 0x10⟩ := by decide +kernel

theorem witness_SurveyStepsMakeTwoAttempts :
    let second : SurveyRun := { surveyRun with attempt := 2 }
    let last : SurveyRun := { surveyRun with attempt := 2, todo := [0x6F] }
    let waiting : SurveyRun := { surveyRun with wait := some 750 }
    ((surveying surveyRun (some ⟨.survey, .selfCheck 0x10⟩)).live = true ∧ surveyRun.todo = 0x10 :: [0x6F]
      ∧ (surveying surveyRun (some ⟨.survey, .selfCheck 0x10⟩)).cdm.bus = some ⟨.survey, .selfCheck 0x10⟩
      ∧ surveyRun.attempt = 1)
    ∧ (second.attempt = 2 ∧ (surveying second (some ⟨.survey, .selfCheck 0x10⟩)).node 0x10 = some (Node.start 0x10 0 1))
    ∧ (last.todo = 0x6F :: [] ∧ (surveying last (some ⟨.survey, .selfCheck 0x6F⟩)).node 0x6F = some (Node.start 0x6F 1 1))
    ∧ waiting.wait = some 750
    ∧ (([25, 25, 25, 25, 25, 25, 25, 25] : List Byte).length = 8
      ∧ BitVec.ofNat 8 0x10 + sumBytes [25, 25, 25, 25, 25, 25, 25, 25] + 0x28 = 0
      ∧ (surveying surveyRun (some ⟨.survey, .readPoints 0x10⟩)).cdm.bus = some ⟨.survey, .readPoints 0x10⟩) := by
  decide +kernel

theorem witness_BargePlansStayWithinTheirCeiling :
    let s : State := { terminal with btu := { Btu.created with stage := some 410, fresh := true, timer := some 0 } }
    let least : BargePlan := ⟨0, [], 1, 350, 1, 600, 0, 1000, [260000, 0]⟩
    let most : BargePlan := ⟨1, [0x41], 1, 0, 5, 50, 200, 50000, [0, 0, 0, 0, 0, 0]⟩
    (s.accepts .berthBarge .dock ∧ s.btu.rev = 1 ∧ s.btu.state ≠ .planned ∧ s.btu.fresh = true ∧ s.btu.stage = some 410
      ∧ parseBarge (u16 0 ++ [0xC0, 1] ++ u16 350 ++ [1] ++ u16 600 ++ u16 0 ++ u32 1000 ++ [2] ++ u32 260000 ++ u32 0) = some least
      ∧ s.isConfigured 1 = true ∧ cargoCeiling s.berthCfg.datum s.berthCfg.clearance 600 0 1000 410 = 260000
      ∧ least.targets.sum = 260000)
    ∧ (parseBarge (u16 1 ++ textField [0x41] ++ [1] ++ u16 0 ++ [5] ++ u16 50 ++ u16 200 ++ u32 50000 ++ [6]
        ++ (List.replicate 6 (u32 0)).flatten) = some most
      ∧ cargoCeiling s.berthCfg.datum s.berthCfg.clearance 50 200 50000 410 = 0)
    ∧ (terminal.accepts .berthBarge .dock ∧ terminal.btu.state ≠ .planned ∧ terminal.btu.fresh = false)
    ∧ (loading.accepts .berthBarge .dock ∧ loading.btu.state = .planned)
    ∧ (loading.accepts .amendPlan .dock ∧ loading.btu.rev = 300
      ∧ parseAmend (u16 300 ++ [5] ++ u32 272000 ++ u32 272000 ++ u32 100000 ++ u32 0 ++ u32 272000)
        = some (300, [272000, 272000, 100000, 0, 272000])
      ∧ ([272000, 272000, 100000, 0, 272000] : List Nat) ≠ loading.btu.holds.map (·.target)
      ∧ (loading.btu.holds.map (·.target)).sum = loading.btu.ceiling ∧ loading.rc.claims = [])
    ∧ (terminal.accepts .amendPlan .dock ∧ terminal.btu.state ≠ .planned) := by
  unfold State.accepts; decide +kernel

/-- The lots aboard that barge. -/
def lots : List Lot :=
  [⟨0, 7, false, 1, 2, false, false, 500000, 140, 500000, 0, 0, 0, 3, 1⟩,
   ⟨1, 8, false, 1, 2, false, false, 500000, 140, 500000, 0, 0, 0, 2, 1⟩]

theorem witness_CloseBargeShipsTheCargo :
    let s : State := { loading with tlr := { loading.tlr with lots := lots } }
    let busy : State := { s with rc := { s.rc with berthIn := some 6 } }
    (s.accepts .closeBarge .dock ∧ fields [2] (u16 300) = some [300] ∧ s.btu.rev = 300 ∧ s.btu.state = .planned
      ∧ s.rc.berthIn = none ∧ (s.tlr.lots.map (·.number)).Nodup)
    ∧ ((s.btu.holds.flatMap (·.lots)).count 7 = 2 ∧ (s.btu.holds.flatMap (·.lots)).count 8 = 2
      ∧ (s.lot 7).map (·.refs) = some 3 ∧ (s.lot 8).map (·.refs) = some 2 ∧ s.lot 9 = none)
    ∧ (busy.accepts .closeBarge .office ∧ busy.rc.berthIn = some 6)
    ∧ (terminal.accepts .closeBarge .dock ∧ terminal.btu.state ≠ .planned) := by
  unfold State.accepts; decide +kernel

theorem witness_StagesSetTheCeilingAndGoStale :
    (terminal.accepts .reportStage .dock ∧ terminal.btu.state ≠ .planned
      ∧ fields [2, 2] (u16 1 ++ u16 0x8000) = some [1, 0x8000] ∧ fields [2, 2] (u16 1 ++ u16 0x7FFF) = some [1, 0x7FFF]
      ∧ fields [2, 2] (u16 2 ++ u16 3000) = some [2, 3000] ∧ terminal.btu.rev = 1)
    ∧ (loading.accepts .reportStage .office ∧ loading.btu.state = .planned ∧ (loading.rc.claims.map (·.number)).Nodup
      ∧ cargoCeiling loading.berthCfg.datum loading.berthCfg.clearance 290 60 6800 0
        ≤ (loading.btu.holds.map (·.loaded)).sum)
    ∧ (loading.live = true ∧ loading.btu.fresh = true ∧ loading.btu.timer = some 0)
    ∧ (let s : State := { terminal with btu := { Btu.created with stage := some 410, fresh := true, timer := some 0 } }
       s.live = true ∧ s.btu.fresh = true ∧ s.btu.timer = some 0 ∧ s.btu.state ≠ .planned) := by
  unfold State.accepts; decide +kernel

theorem witness_StartUpLoadsTheStoreAndBecomesReady :
    (State.reset.phase = .loadConfig ∧ sumBytes (State.reset.rsc.store.slice 0 49) ≠ 0)
      ∧ ({ terminal with phase := .loadMirror } : State).phase = .loadMirror := by decide +kernel

/-- R93: ACCEPT BALANCE in mode 1 refused for an UNVERIFIED pit carries the state and the six figures, 49 bytes. -/
theorem test_a_refused_balance_carries_the_figures :
    let s := terminal.modPit 1 fun b => { b with unverified := true }
    let o := exec (.acceptBalance .office 1 [1]) s
    (codeAt .office o, (bodyAt .office o).length, (bodyAt .office o).drop 41) = (some .badState, 49, s64 5000) := by
  decide +kernel

/-- R153: a later formation does not reach the condition slot; it carries the values of the last change of level. -/
theorem test_a_condition_slot_keeps_the_values_of_its_change :
    let b : BinCondition := { BinCondition.start with hottest := ⟨41, 9, 9⟩, rise := ⟨3, 31, 31⟩, level := .critical }
    ({ b.save with hottest := ⟨33, 33, 9⟩, rise := ⟨0, 100, 31⟩ } : BinCondition).mirror = [2, 0, 9, 31] := by decide +kernel

/-- R92, R176: a bad balance slot sets all five counters to 0 and opens the balance. -/
theorem test_a_bad_balance_slot_empties_the_counters :
    let s := State.startUp [(SlotId.addr ⟨.balance, 0⟩, 0)] []
    let s : State := { s with inv := { s.inv with balance := ⟨1, 2, 3, 4, 5, false⟩ } }
    (Ev.start s).loadBalance.st.inv.balance = ⟨0, 0, 0, 0, 0, true⟩ := by decide +kernel

/-- A store in which each of some slots holds one byte that is not blank. -/
def spoilt (ids : List SlotId) : Store := ids.foldl (fun m id => m.write id.addr [0]) []

theorem witness_StartUpLoadsTheStoreAndBecomesReady_with_bad_slots :
    let m := spoilt [⟨.ring, 0⟩, ⟨.counters, 0⟩, ⟨.balance, 0⟩, ⟨.pit, 1⟩, ⟨.bin, 27⟩, ⟨.ticket, 11⟩, ⟨.lot, 399⟩]
    let s : State := { terminal with phase := .loadMirror, rsc := { terminal.rsc with store := m } }
    (s.phase = .loadMirror ∧ s.rc.claims = [] ∧ s.tlr.tickets = [] ∧ s.tlr.lots = [] ∧ s.evr.held = [])
      ∧ m.judge ⟨.ring, 0⟩ Parse.ring = .bad ∧ m.judge ⟨.counters, 0⟩ Parse.counters = .bad
      ∧ m.judge ⟨.balance, 0⟩ Parse.balance = .bad ∧ m.judge ⟨.pit, 1⟩ Parse.pit = .bad
      ∧ m.judge ⟨.bin, 27⟩ Parse.bin = .bad ∧ m.judge ⟨.ticket, 11⟩ Parse.ticket = .bad
      ∧ m.judge ⟨.lot, 399⟩ Parse.lot = .bad := by decide +kernel

theorem witness_StartUpLoadsTheStoreAndBecomesReady_with_other_bad_slots :
    let m := spoilt [⟨.batchList, 0⟩, ⟨.berth, 0⟩, ⟨.condition, 27⟩, ⟨.survey, 0⟩, ⟨.running, 0⟩]
    let counted := (spoilt [⟨.ring, 0⟩]).write (SlotId.addr ⟨.counters, 0⟩) (terminal.slotBytes ⟨.counters, 0⟩)
    m.judge ⟨.batchList, 0⟩ Parse.dru = .bad
      ∧ m.judge ⟨.berth, 0⟩ Parse.btu = .bad
      ∧ m.judge ⟨.condition, 27⟩ Parse.condition = .bad
      ∧ m.judge ⟨.survey, 0⟩ Parse.survey = .bad
      ∧ m.judge ⟨.running, 0⟩ Parse.running = .bad
      ∧ (counted.judge ⟨.ring, 0⟩ Parse.ring = .bad
        ∧ counted.judge ⟨.counters, 0⟩ Parse.counters = .record 0 (terminal.tlr.counter, terminal.evr.count)) := by
  decide +kernel

theorem witness_ConfigurationAreasAreReadStagedAndWritten :
    let s := stored 16
    s.accepts .readConfigurationArea .office ∧ fields [1, 2, 1] ([1, 0, 0, 200] : List Byte) = some [1, 0, 200]
      ∧ (areaEntry (s.rsc.store.slice 0 49) 1).length = 200 ∧ (areaEntry (s.rsc.store.slice 0 49) 1).addr + 199 < 0x20000
      ∧ fields [1, 2, 1] ([0, 0, 48, 1] : List Byte) = some [0, 48, 1]
      ∧ fields [1, 2, 1] ([0, 0, 48, 2] : List Byte) = some [0, 48, 2] ∧ fields [1, 2, 1] ([9, 0, 0, 1] : List Byte) = some [9, 0, 1]
      ∧ fields [1, 2, 1] ([1, 0, 0, 201] : List Byte) = some [1, 0, 201] := by
  unfold State.accepts; decide +kernel

theorem witness_ConfigurationAreasAreReadStagedAndWritten_write :
    let s := stored 16
    let held : State := { s with rsc := { s.rsc with staging := some ⟨1, 256, List.replicate 200 0⟩ } }
    let entry := areaEntry (s.rsc.store.slice 0 49) 1
    (s.accepts .writeConfigurationArea .office ∧ sumBytes (s.rsc.store.slice 0 49) = 0 ∧ entry.room = 256
      ∧ entry.addr + 256 ≤ 0x20000 ∧ s.rsc.write = none ∧ s.rsc.jobs = [])
    ∧ (held.accepts .writeConfigurationArea .office ∧ held.rsc.staging = some ⟨1, 256, List.replicate 200 0⟩
      ∧ (List.replicate 200 (0 : Byte)).length = 200 ∧ sumBytes (List.replicate 200 0 ++ List.replicate 56 0) = 0
      ∧ (List.replicate 200 (0 : Byte) ++ List.replicate 56 0).length = 256)
    ∧ (terminal.accepts .writeConfigurationArea .office ∧ sumBytes (terminal.rsc.store.slice 0 49) ≠ 0
      ∧ (header 16).length = 49 ∧ sumBytes (header 16) = 0) := by
  unfold State.accepts; decide +kernel

theorem witness_StoreWritesChangeOnlyTheirBytes :
    let id : SlotId := ⟨.bin, 27⟩
    let j : ConfigJob := ⟨some .office, 1, 9, []⟩
    let k : ConfigJob := ⟨some .office, 1, 9, [.header 9]⟩
    let queued : State := { terminal with rsc := { terminal.rsc with queue := [id] } }
    (queued.live = true ∧ queued.rsc.store.wf = true ∧ queued.rsc.write = none ∧ queued.rsc.jobs = []
      ∧ queued.rsc.queue = id :: [])
    ∧ ((writing (.mirror id) []).rsc.store.wf = true
      ∧ (writing (.mirror id) []).rsc.write = some ⟨.mirror id, 0x1000, [1, 2, 3], 0⟩ ∧ (writing (.mirror id) []).rsc.jobs = [])
    ∧ ((writing .config [j]).rsc.write = some ⟨.config, 0x1000, [1, 2, 3], 0⟩ ∧ (writing .config [j]).rsc.jobs = [j]
      ∧ j.todo = [] ∧ j.port = some .office)
    ∧ ((writing .config [k]).rsc.jobs = k :: [] ∧ k.todo = .header 9 :: [] ∧ (1 : Fin 9) ≠ 0 ∧ 0x1000 + 3 ≤ 0x20000)
    ∧ ((0xFF : Byte).toNat % 2 = 1 ∧ (0xFE : Byte).toNat % 2 = 0) := by decide +kernel

theorem witness_PowerResetAndRestartKeepTheStore :
    let a : Answer := ⟨1, 0x59, .ok, []⟩
    let s := (withSlot terminal .office (.answering a none)).modPort .office fun q => { q with tx := some (.answer [1]) }
    let busy : State := { s with rsc := { s.rsc with queue := [⟨.bin, 0⟩] } }
    let w := writing (.mirror ⟨.bin, 0⟩) []
    (w.rsc.store.wf = true ∧ w.phase ≠ .off ∧ w.phase ≠ .resetHeld
      ∧ w.rsc.write = some ⟨.mirror ⟨.bin, 0⟩, 0x1000, [1, 2, 3], 0⟩ ∧ (∀ k, k < 3 → storePlace (0x1000 + k) ≠ some 0xFFF))
    ∧ terminal.accepts .restart .office
    ∧ (s.live = true ∧ (s.port .office).tx = some (.answer [1]) ∧ (s.port .office).slot = .answering a none
      ∧ a.kind = 0x59 ∧ a.code = .ok ∧ s.rsc.write = none ∧ s.rsc.jobs = [] ∧ s.rsc.queue = [])
    ∧ ¬(busy.rsc.write = none ∧ busy.rsc.jobs = [] ∧ busy.rsc.queue = []) := by
  unfold State.accepts; decide +kernel

/-- The running transfer with a watch of Dryer on its first segment and one of Dock on its claim, a slot queued, and
the answer to a RESTART of Office in transmission. -/
def restarting : State :=
  let s := (withSlot running .office (.answering ⟨1, 0x59, .ok, []⟩ none)).modPort .office fun q => { q with tx := some (.answer [1]) }
  let s := withSlot s .dryer (.parked 2 ⟨.segment 2, 1, none⟩)
  let s := withSlot s .dock (.parked 3 ⟨.claim 6, 3, none⟩)
  { s with rsc := { s.rsc with queue := [⟨.bin, 0⟩] } }

theorem witness_PowerResetAndRestartKeepTheStore_drops_the_claims :
    restarting.live = true ∧ (restarting.port .office).tx = some (.answer [1])
      ∧ (restarting.port .office).slot = .answering ⟨1, 0x59, .ok, []⟩ none
      ∧ (restarting.seg 2).state = .held 6 ∧ (restarting.seg 19).state = .free ∧ (restarting.seg 19).permit = false
      ∧ (restarting.port .dryer).slot = .parked 2 ⟨.segment 2, 1, none⟩
      ∧ (restarting.port .dock).slot = .parked 3 ⟨.claim 6, 3, none⟩ ∧ (restarting.claim 6).isSome = true
      ∧ (restarting.port .yard).slot = .empty := by decide +kernel

theorem witness_PowerResetAndRestartKeepTheStore_while_it_writes :
    let id : SlotId := ⟨.bin, 27⟩
    let j : ConfigJob := ⟨some .office, 1, 9, []⟩
    let k : ConfigJob := ⟨some .office, 1, 9, [.header 9]⟩
    let s (x : State) : State := { x with phase := .restarting }
    let queued := s { terminal with rsc := { terminal.rsc with queue := [id] } }
    (queued.phase = .restarting ∧ queued.rsc.store.wf = true ∧ queued.rsc.write = none ∧ queued.rsc.jobs = []
      ∧ queued.rsc.queue = id :: [])
    ∧ (let w := s (writing (.mirror id) [])
       w.rsc.store.wf = true ∧ w.rsc.write = some ⟨.mirror id, 0x1000, [1, 2, 3], 0⟩ ∧ w.rsc.jobs = [])
    ∧ (let w := s (writing .config [j])
       w.rsc.write = some ⟨.config, 0x1000, [1, 2, 3], 0⟩ ∧ w.rsc.jobs = [j] ∧ j.port = some .office ∧ j.todo = [])
    ∧ ((s (writing .config [k])).rsc.jobs = k :: [] ∧ k.todo = .header 9 :: [])
    ∧ ((0xFF : Byte).toNat % 2 = 1 ∧ (0xFE : Byte).toNat % 2 = 0) := by decide +kernel

/-- R97, R175: the claims dropped at a RESTART free their segments with one revision each, logging nothing. -/
theorem test_restart_raises_the_revision_of_a_held_segment :
    (match exec (.answerSent .office) restarting with
      | .next t => (t.seg 2, (t.port .dryer).slot, (t.port .dock).slot, t.evr == restarting.evr)
      | _ => (Segment.start, .empty, .empty, false))
    = ({ restarting.seg 2 with state := .free, permit := false, rev := nextRev (restarting.seg 2).rev },
       .answering ⟨2, 0x03, .changed, u16 (nextRev (restarting.seg 2).rev)⟩ none, .answering ⟨3, 0x03, .gone, []⟩ none,
       true) := by decide +kernel

/-- R175: a slot write that times out while RESTART writes is neither queued again nor logged, and start-up begins. -/
theorem test_restart_abandons_a_write_once :
    (match exec (.mirrorWriteTimeout [1]) { writing (.mirror ⟨.bin, 27⟩) [] with phase := .restarting } with
      | .next t => (t.phase, t.rsc.queue, t.evr.count, t.rsc.store.read 0x1000, t.rsc.store.read 0x1001)
      | _ => (.off, [], 0, 0, 0))
    = (.loadConfig, [], 0, 1, 8) := by decide +kernel

theorem witness_ALotComesBackFromItsMirrorSlot :
    let l : Lot := ⟨399, 65535, true, 7, 0, true, true, 79800, 350, 79800, 0, 0, 1, 400, 65535⟩
    Store.wf [] = true ∧ 399 < 400 ∧ 65535 ≤ 65535 ∧ 1 ≤ l.number ∧ l.number ≤ 65535 ∧ l.commodity ≤ 7 ∧ l.grade ≤ 5
      ∧ (l.damaged = false → 1 ≤ l.grade) ∧ l.net < 2 ^ 32 ∧ l.moisture ≤ 350 ∧ l.standard < 2 ^ 32
      ∧ l.waterShrink < 2 ^ 32 ∧ l.handlingShrink < 2 ^ 32 ∧ l.intakeTime < 2 ^ 32 ∧ l.refs ≤ 400
      ∧ (0 < 400 ∧ 0 ≠ 399 ∧ (List.replicate 64 (0 : Byte)).length ≤ 64) := by decide +kernel

theorem witness_SetClockSetsTerminalTimeAlone :
    let s : State := { terminal with clock := some ⟨1000, 0⟩ }
    terminal.accepts .setClock .office ∧ fields [4] ([0, 0, 0, 0] : List Byte) = some [0]
      ∧ fields [4] ([0, 0, 0, 1] : List Byte) = some [1] ∧ terminal.clock = none
      ∧ s.clock = some ⟨1000, 0⟩ ∧ 1000 + (s.ms / 1000 - 0) < 2 ^ 32 := by
  unfold State.accepts; decide +kernel

theorem witness_IncrementsEnterBinsBatchesAndBargeHolds :
    let part : Part := ⟨1000, 150, 3, [7, 8], false, 1⟩
    let full : State := terminal.modBin 1 fun b =>
      { b with commodity := some 1, layers := (List.range 12).map fun k => { layer with number := k + 1 } }
    let topped : State := { loading with btu := { barge with ceiling := 644000 } }
    [part] ≠ []
    -- the open layer, a fresh layer, the merge at twelve
    ∧ (((terminal.bin 0).layers.map (·.number)).Nodup ∧ (terminal.bin 0).layers = [] ++ layer :: [] ∧ layer.number = 1
      ∧ 2 ∉ (terminal.bin 0).layers.map (·.number) ∧ (terminal.bin 0).layers.length < 12)
    ∧ (((full.bin 1).layers.map (·.number)).Nodup ∧ 12 ≤ (full.bin 1).layers.length
      ∧ (full.bin 1).layers = (full.bin 1).layers.dropLast ++ [{ layer with number := 12 }])
    -- the FILLING batch, and none
    ∧ (((drying .filling).dru.batches.filter fun b => b.state == .filling).length ≤ 1
      ∧ (drying .filling).dru.batches = [] ++ batch .filling :: [] ∧ (batch .filling).state = .filling)
    ∧ (∀ b ∈ (drying .drying).dru.batches, b.state ≠ .filling)
    -- a barge hold, and the cargo brought to the ceiling
    ∧ loading.btu.holds[1 - 1]? = some ⟨272000, 272000, 0, some 2, [7], false⟩
    ∧ (topped.btu.holds.set 0 ⟨273000, 273000, 0, some 3, [7, 8], false⟩ |>.map (·.loaded)).sum = 645000
    ∧ (topped.rc.claims.map (·.number)).Nodup := by decide +kernel

theorem witness_FormationsSetTheAttributesAndTheLevel :
    let point (c : Byte) : Point := { (Node.start 0x10 0 1).points[0] with code := c, good := some 0 }
    let warm : State := { cabled with cdm := { cabled.cdm with nodes :=
      [{ Node.start 0x10 0 1 with points := Vector.replicate 8 (point 25) |>.set 3 (point 0xC4) }] } }
    ((terminal.bin 1).layers = [] ∧ (cabled.bin 0).layers = layer :: [])
    ∧ (warm.bin 0).layers = layer :: []
    ∧ ((warm.cdm.nodes.filter fun n => n.bin == 0).flatMap fun n => n.points.toList.map (·.temp warm.ms))
        = [some 25, some 25, some 25, some (-60), some 25, some 25, some 25, some 25]
    ∧ ((cabled.cdm.nodes.filter fun n => n.bin == 0).flatMap fun n => n.points.toList.filterMap (·.temp cabled.ms)) = []
    ∧ (∀ n ∈ cabled.cdm.nodes, n.bin ≠ 2) := by decide +kernel

theorem witness_LevelsOrdersAndReferencesFollowTheirEvents :
    (terminal.rc.claims.map (·.number)).Nodup ∧ (running.rc.claims.map (·.number)).Nodup
    ∧ Level.critical ≠ (terminal.cond 0).level ∧ Level.advisory ≠ (terminal.cond 0).level
    ∧ (terminal.cond 0).order = .none
    ∧ ((running.rc.claims.filterMap Claim.runningTransfer).filter fun x => x.dest == .bin 0 && x.source != .bin 0) = []
    ∧ ((withClaim terminal ⟨6, .yard, 1, .running { transfer (.bin 0) with source := .pit 0 }, 3⟩).rc.claims.filterMap
        Claim.runningTransfer).length = 1
    -- the turnover at its edge: 50 of 100
    ∧ (terminal.berthCfg.fraction * 100 ≤ 50 * 100 ∧ ¬(terminal.berthCfg.fraction * 100 ≤ 49 * 100)) := by decide +kernel

/-- R144, R87: a bin turned CRITICAL trips the transfer into it with cause HOT, between the change and the order. -/
theorem test_a_critical_level_trips_between_its_events :
    let s := withClaim terminal ⟨6, .yard, 1, .running { transfer (.bin 0) with source := .pit 0 }, 3⟩
    (s.event (·.setLevel 0 .critical)).evr.ring.map (·.kind) = [.conditionChange, .trip, .rotationOrder] := by decide +kernel

/-- R95, R178: a bad bin slot logs HOLD_PLACED before MIRROR_FAULT. -/
theorem test_a_bad_bin_slot_logs_the_hold_first :
    let store := Store.write [] (SlotId.addr ⟨.bin, 0⟩) [1]
    ((Ev.start { State.reset with rsc := { State.reset.rsc with store } }).loadBin 0).commit.st.evr.held.map (·.kind)
      = [.holdPlaced, .mirrorFault] := by decide +kernel

/-- R28, R148: an answer the SLP gives to ZERO BRIDGE or START SURVEY carries the report all the same. -/
theorem test_refusals_of_the_slp_carry_the_reports :
    bodyAt .dock (exec (.startSurvey .dock 1 [0]) terminal) = [0, 0, 0, 0, 0]
      ∧ codeAt .yard (exec (.startSurvey .yard 1 [0]) State.reset) = some .notReady
      ∧ bodyAt .yard (exec (.startSurvey .yard 1 [0]) State.reset) = [0, 0, 0, 0, 0]
      ∧ (bodyAt .dock (exec (.zeroBridge .dock 1 []) (weighing .stable 2143898))).take 7 = [4, 0, 16, 0, 0, 0xA3, 0x98] := by
  decide +kernel

/-- R82, R94: a self route that takes a bin's one layer, number 1, and opens its new layer as 1 again raises the
revision and reports a new bottom layer, whose age is formed anew. -/
theorem test_a_layer_that_takes_an_old_number_is_a_new_layer :
    let s := terminal.modBin 0 fun b => { b with layerCtr := 0 }
    let t := s.event fun e => (e.turnBin 0 9 none 5000).1
    (t.bin 0).layers.map (·.number) = [1] ∧ (t.bin 0).rev = (s.bin 0).rev + 1
      ∧ (t.bin 0).layers.map (·.origin) = [.rotation] := by decide +kernel

/-- R91, R147: a SURVEY layer that takes the number of the old bottom layer is a change of the bottom layer: AGE, which
stood at 3 days, is formed anew. -/
theorem test_a_survey_layer_is_a_new_bottom_layer :
    let s := terminal.modBin 0 fun b => { b with layerCtr := 0 }
    let s := s.modCond 0 fun b => { b with age := { b.age with raw := 3 } }
    (match exec (.adjustMass .office 1 ([1, 1] ++ u16 0 ++ u32 7000 ++ [1, 1] ++ u16 150 ++ [2])) s with
      | .next t => ((t.bin 0).layers.map (·.number), (t.cond 0).age.raw) | _ => ([], 9)) = ([1], 0) := by decide +kernel

/-- R122, R133: a mirrored FILLING batch of zero mass does not make its slot bad; a DRYING one of zero mass does. -/
theorem test_an_empty_filling_batch_is_taken_back_and_removed :
    let b (st : BatchState) : Batch := { batch st with inMass := 0, inSum := 0, grade := 0 }
    let d (st : BatchState) : Dru := ⟨[b st], some 1, 41, 7⟩
    let image (st : BatchState) : List Byte := slotImage .batchList 0 1 7 (d st).mirror
    judgeSlot .batchList Parse.dru (image .filling) = .record 7 { d .filling with rev := 1 }
      ∧ (judgeSlot .batchList Parse.dru (image .drying)).isBad = true
      ∧ ((d .filling).closeFilling 0).batches = [] := by decide +kernel

/-- The bodies of the eight areas of a small valid image. -/
def areaBodies : List (List Byte) :=
  [[155, 155, 155, 155, 155, 15],
   be 3 1280 ++ beInt 3 (-7) ++ [20] ++ be 3 80000,
   (List.range 8).flatMap fun k => textField [] ++ u16 150 ++ u16 155 ++ [50, if k = 1 then 1 else 0],
   u16 10000 ++ u16 60000 ++ (List.range 28).flatMap fun k => (if k = 27 then 1 else 0) :: be 3 50000,
   [1, 29, 1, 9] ++ u16 500 ++ [30, 2, 1, 2],
   u16 60 ++ [1, 0x10] ++ List.replicate 27 0,
   (List.replicate 4 (u16 15 ++ u16 45 ++ [40, 2])).flatten ++ [1],
   beInt 2 (-120) ++ [30] ++ be 3 60000 ++ [15, 50]]

/-- Bodies with their checks laid out from an 8-byte unit onward: the header entries, and the bytes behind them. -/
def layOut : Nat → List (List Byte) → List Byte × List Byte
  | _, [] => ([], [])
  | unit, b :: bs =>
    let body := b ++ [checkByte b]
    let units := (body.length + 7) / 8
    let (entries, bytes) := layOut (unit + units) bs
    (u16 unit ++ u16 (8 * units) ++ u16 body.length ++ entries, body ++ List.replicate (8 * units - body.length) 0 ++ bytes)

/-- A store that holds that image and no mirror. -/
def imageStore : Store :=
  let (entries, bytes) := layOut 7 areaBodies
  let image := entries ++ [checkByte entries] ++ List.replicate 7 0 ++ bytes
  ((List.range image.length).zip image).filter fun c => c.2 != 0xFF

/-- R95, R176: a bad bin slot gives a bin created UNVERIFIED under a STANDARD hold by Office, a MIRROR_FAULT for the slot
kind 1, and an OPEN balance. -/
theorem test_a_bad_bin_slot_is_recovered :
    (let e := (Ev.start { State.startUp (spoilt [⟨.bin, 27⟩]) [] with evr := { Evr.start with standing := true } }).loadBin 27
     ((e.st.bin 27).unverified, (e.st.bin 27).hold, e.st.evr.ring.map fun x => (x.kind, x.subject, x.value), e.st.inv.balance.isOpen))
    = (true, some ⟨.standard, .office⟩, [(.holdPlaced, .location 28, 1), (.mirrorFault, .location 28, 1)], true) := by
  decide +kernel

/-- R168, R175: a valid image leads on to the mirror, with its areas in force. -/
theorem test_a_valid_image_loads :
    (match exec .configurationLoaded { State.reset with rsc := { State.reset.rsc with store := imageStore } } with
      | .next t => (t.phase, t.cfg.scale, t.route 1, t.cdm.nodes.map fun n => (n.addr, n.bin), (t.bin 27).capacity)
      | _ => (.off, none, none, [], 0))
    = (.loadMirror, some ⟨1280, -7, 20, 80000⟩, some ⟨1, .pit 0, .bin 0, [0, 1], [.office, .yard], 500, 30⟩,
       [(0x10, 0)], 50000) := by decide +kernel

end Sys2Proof.Tests
end

section
/-! PROOF. What the commands keep: the queue of waiting commands, the stated sizes and the canonical store. One relation,
`State.Keeps`, is carried through every operation of an event, then through every command. -/
namespace Sys2Proof.Machine

/-- What of a state the stated sizes, the queue of commands and the form of the store speak of. -/
structure Watched where
  pending : List Instr
  notices : PerPort (List Notice)
  window : List Int
  ring : List ClosedTransfer
  log : List SurveyEntry
  events : List Event
  store : Store

/-- The watched parts of a state. -/
def State.watched (s : State) : Watched :=
  { pending := s.pending, notices := s.ports.map (·.notices), window := s.wbu.window, ring := s.rc.ring,
    log := s.cdm.log, events := s.evr.ring, store := s.rsc.store }

/-- `w` has the commands of `v` waiting; and each stated size (R9, R23, R114, R151, R178) and the canonical form of the
store that held in `v` hold in `w`. -/
structure Watched.Keeps (v w : Watched) : Prop where
  pending : w.pending = v.pending
  notices : ∀ p, (v.notices.get p).length ≤ 8 → (w.notices.get p).length ≤ 8
  window : v.window.length ≤ 16 → w.window.length ≤ 16
  ring : v.ring.length ≤ 16 → w.ring.length ≤ 16
  log : v.log.length ≤ 8 → w.log.length ≤ 8
  events : v.events.length ≤ 64 → w.events.length ≤ 64
  store : v.store.wf = true → w.store.wf = true

/-- `t` keeps what is watched of `s`. -/
def State.Keeps (t s : State) : Prop := s.watched.Keeps t.watched

/-- An event keeps what is watched of the state `s`. -/
def Ev.Keeps (e : Ev) (s : State) : Prop := e.st.Keeps s

theorem State.Keeps.refl (s : State) : s.Keeps s := ⟨rfl, fun _ => id, id, id, id, id, id⟩

/-- The stated sizes are kept. -/
theorem State.Keeps.bounded {s t : State} (h : t.Keeps s) (hs : s.bounded) : t.bounded := by
  obtain ⟨hn, hw, hr, hl, he⟩ := hs
  have hport : ∀ (u : State) p, u.watched.notices.get p = (u.port p).notices := fun u p => PerPort.get_map ..
  refine ⟨fun p => ?_, h.window hw, h.ring hr, h.log hl, h.events he⟩
  have := h.notices p
  rw [hport, hport] at this
  exact this (hn p)

section
variable {s t u : State} {e : Ev}

/-- A change of state that leaves the watched parts alone keeps them. -/
theorem State.Keeps.same (h : t.Keeps s) (hu : u.watched = t.watched) : u.Keeps s := by
  unfold State.Keeps; rw [hu]; exact h

/-- A change in the course of an event that leaves the watched parts alone keeps them. -/
theorem Ev.Keeps.map {f : State → State} (h : e.Keeps s) (hf : (f e.st).watched = e.st.watched) : (e.map f).Keeps s :=
  State.Keeps.same h hf

/-- A change in the course of an event that keeps what is watched. -/
theorem Ev.Keeps.change {f : State → State} (h : e.Keeps s) (hf : e.st.Keeps s → (f e.st).Keeps s) : (e.map f).Keeps s :=
  hf h

theorem State.Keeps.ite {c : Prop} [Decidable c] (h : t.Keeps s) (h' : u.Keeps s) : (if c then t else u).Keeps s := by
  split <;> assumption

theorem Ev.Keeps.ite {c : Prop} [Decidable c] {e' : Ev} (h : e.Keeps s) (h' : e'.Keeps s) :
    (if c then e else e').Keeps s := by
  split <;> assumption

/-- A fold keeps what each of its steps keeps. -/
theorem Ev.Keeps.foldl {β : Type} {f : Ev → β → Ev} {bs : List β} (h : e.Keeps s)
    (hf : ∀ e b, e.Keeps s → (f e b).Keeps s) : (bs.foldl f e).Keeps s :=
  foldl_keeps (·.Keeps s) f hf bs e h

/-! ### Ports -/

/-- A change of ports that lengthens no notice queue beyond 8 keeps what is watched (R9). -/
theorem State.Keeps.ports {ps : PerPort SlpPort} (h : t.Keeps s)
    (hp : ∀ p, (t.port p).notices.length ≤ 8 → (ps.get p).notices.length ≤ 8) : State.Keeps { t with ports := ps } s where
  pending := h.pending
  notices p hs := by
    have := hp p
    have ht := h.notices p hs
    simp only [State.watched, PerPort.get_map] at ht ⊢
    exact this ht
  window := h.window
  ring := h.ring
  log := h.log
  events := h.events
  store := h.store

theorem State.Keeps.modPort {p : Port} {f : SlpPort → SlpPort} (h : t.Keeps s)
    (hf : ∀ x : SlpPort, x.notices.length ≤ 8 → (f x).notices.length ≤ 8) : (t.modPort p f).Keeps s :=
  h.ports fun q hq => by
    by_cases hpq : q = p
    · subst hpq; rw [PerPort.get_upd_same]; exact hf _ hq
    · rw [PerPort.get_upd_other _ _ hpq]; exact hq

@[simp] theorem SlpPort.reply_notices (code : Code) (body : List Byte) (x : SlpPort) :
    (x.reply code body).notices = x.notices := by
  unfold SlpPort.reply; split <;> rfl

@[simp] theorem SlpPort.endWatch_notices (r : RecRef) (code : Code) (body : List Byte) (x : SlpPort) :
    (x.endWatch r code body).notices = x.notices := by
  unfold SlpPort.endWatch; split <;> (try split) <;> rfl

theorem State.Keeps.reply {p : Port} {code : Code} {body : List Byte} (h : t.Keeps s) : (t.reply p code body).Keeps s :=
  h.modPort fun x hx => by simpa using hx

theorem State.Keeps.offer {ports : List Port} {k : NoticeKind} {body : List Byte} (h : t.Keeps s) :
    (t.offer ports k body).Keeps s :=
  h.ports fun p hp => by
    show ((t.offer ports k body).port p).notices.length ≤ 8
    rw [State.port_offer]
    split
    · exact SlpPort.offer_bounded _ _ hp
    · exact hp

theorem State.Keeps.reportRevision {r : RecRef} {n : Nat} (h : t.Keeps s) : (t.reportRevision r n).Keeps s :=
  h.ports fun p hp => by simpa [State.port] using hp

theorem State.Keeps.reportDeletion {r : RecRef} {body : List Byte} (h : t.Keeps s) : (t.reportDeletion r body).Keeps s :=
  h.ports fun p hp => by simpa [State.port] using hp

/-! ### The write-back queue, revisions and plant events -/

theorem State.Keeps.enqueue {id : SlotId} (h : t.Keeps s) : (t.enqueue id).Keeps s :=
  h.same (by unfold State.enqueue; split <;> rfl)

theorem State.Keeps.handOver {r : RecRef} (h : t.Keeps s) : (t.handOver r).Keeps s := by
  unfold State.handOver
  split
  · exact h.enqueue
  · exact h

theorem State.Keeps.raiseRev {r : RecRef} (h : t.Keeps s) : (t.raiseRev r).Keeps s := h.same (by cases r <;> rfl)

theorem State.Keeps.revise {r : RecRef} (h : t.Keeps s) : (t.revise r).Keeps s := by
  unfold State.revise
  dsimp only
  split
  · exact h.raiseRev.handOver.reportRevision
  · exact h.raiseRev.handOver

/-- The event ring holds at most 64 events after one has entered (R178). -/
theorem Evr.enter_ring_length (r : Evr) (time : Nat) (k : EventKind) (x : Subject) (v : Int) (h : r.ring.length ≤ 64) :
    (r.enter time k x v).ring.length ≤ 64 := by
  simp only [Evr.enter, List.length_drop, List.length_append, List.length_singleton]
  omega

/-- A change of the event record that keeps its ring within 64 events keeps what is watched. -/
theorem State.Keeps.modEvr {x : Evr} (h : t.Keeps s) (hx : t.evr.ring.length ≤ 64 → x.ring.length ≤ 64) :
    State.Keeps { t with evr := x } s :=
  { h with events := fun hs => hx (h.events hs) }

theorem State.Keeps.logEvent {k : EventKind} {x : Subject} {v : Int} (h : t.Keeps s) : (t.logEvent k x v).Keeps s := by
  unfold State.logEvent
  split
  · exact ((h.modEvr (Evr.enter_ring_length _ _ _ _ _)).enqueue).enqueue
  · exact h.modEvr id

/-! ### Events -/

theorem Ev.Keeps.start (s : State) : (Ev.start s).Keeps s := State.Keeps.refl s

theorem Ev.Keeps.touch {r : RecRef} (h : e.Keeps s) : (e.touch r).Keeps s := State.Keeps.handOver h

theorem Ev.Keeps.touchIf {b : Bool} {r : RecRef} (h : e.Keeps s) : (e.touchIf b r).Keeps s := h.touch.ite h

theorem Ev.Keeps.revise {r : RecRef} (h : e.Keeps s) : (e.map (·.revise r)).Keeps s := State.Keeps.revise h

theorem Ev.Keeps.commit (h : e.Keeps s) : e.commit.Keeps s :=
  foldl_keeps (fun t : State => t.Keeps s) (·.revise ·) (fun _ _ ht => ht.revise) e.touched e.st h

theorem Ev.Keeps.log {k : EventKind} {x : Subject} {v : Int} (h : e.Keeps s) : (e.log k x v).Keeps s :=
  State.Keeps.logEvent h

theorem Ev.Keeps.offer {ports : List Port} {k : NoticeKind} {body : List Byte} (h : e.Keeps s) :
    (e.offer ports k body).Keeps s := State.Keeps.offer h

theorem Ev.Keeps.enqueue {id : SlotId} (h : e.Keeps s) : (e.enqueue id).Keeps s := State.Keeps.enqueue h

theorem Ev.Keeps.enqueueLot {l : Lot} (h : e.Keeps s) : (e.enqueueLot l).Keeps s := by
  unfold Ev.enqueueLot
  split
  · exact h.enqueue
  · exact h

theorem Ev.Keeps.reply {p : Port} {code : Code} {body : List Byte} (h : e.Keeps s) : (e.reply p code body).Keeps s :=
  State.Keeps.reply h

theorem Ev.Keeps.reportDeletion {r : RecRef} {body : List Byte} (h : e.Keeps s) :
    (e.map (·.reportDeletion r body)).Keeps s := State.Keeps.reportDeletion h

/-- An owner's event from a state that keeps what is watched ends in one. -/
theorem State.Keeps.event {f : Ev → Ev} (h : t.Keeps s) (hf : ∀ e : Ev, e.Keeps s → (f e).Keeps s) :
    (t.event f).Keeps s := (hf (Ev.start t) h).commit

/-! ### The lot register -/

theorem Ev.Keeps.add {lots : List Nat} (h : e.Keeps s) : (e.add lots).Keeps s := h

theorem Ev.Keeps.release {lots : List Nat} {c : ReleaseCause} (h : e.Keeps s) : (e.release lots c).Keeps s := h

theorem Ev.Keeps.retireLot {n : Nat} {b : Bool} (h : e.Keeps s) : (e.retireLot n b).Keeps s := by
  unfold Ev.retireLot
  split
  · exact h
  · exact ((Ev.Keeps.ite h.reportDeletion h.reportDeletion.log).map rfl).enqueueLot

theorem Ev.Keeps.recount {n : Nat} {adds : List Nat} {rels : List (Nat × ReleaseCause)} (h : e.Keeps s) :
    (e.recount n adds rels).Keeps s := by
  unfold Ev.recount
  split
  · exact h
  · next l _ => exact h.ite (.ite (h.map rfl) (Ev.Keeps.revise (h.map rfl)))

theorem Ev.Keeps.retireIfUnnamed {n : Nat} {rels : List (Nat × ReleaseCause)} (h : e.Keeps s) :
    (e.retireIfUnnamed n rels).Keeps s := by
  unfold Ev.retireIfUnnamed
  split
  · exact h
  · exact h.retireLot.ite h

theorem Ev.Keeps.applyChangeSet (h : e.Keeps s) : e.applyChangeSet.Keeps s :=
  (h.foldl fun _ _ h => h.recount).foldl fun _ _ h => h.retireIfUnnamed

/-! ### Segments, claims and trips -/

theorem Ev.Keeps.changeSeg {i : SegIx} {f : Segment → Segment} (h : e.Keeps s) : (e.changeSeg i f).Keeps s :=
  State.Keeps.revise (State.Keeps.same h rfl)

theorem State.Keeps.modClaim {n : Nat} {f : Claim → Claim} (h : t.Keeps s) : (t.modClaim n f).Keeps s := h.same rfl

theorem Ev.Keeps.touchLoc {l : Loc} (h : e.Keeps s) : (e.touchLoc l).Keeps s := by
  cases l
  case reject => exact h
  all_goals exact h.touch

theorem Ev.Keeps.setInbound {l : Loc} {c : Option Nat} (h : e.Keeps s) : (e.setInbound l c).Keeps s := by
  cases l
  case pit | reject => exact h
  all_goals exact Ev.Keeps.touch (h.map rfl)

theorem Ev.Keeps.setOutbound {l : Loc} {c : Option Nat} (h : e.Keeps s) : (e.setOutbound l c).Keeps s := by
  cases l
  case reject => exact h
  all_goals exact Ev.Keeps.touch (h.map rfl)

theorem Ev.Keeps.freeClaim {n : Nat} {keep : Option SegIx} (h : e.Keeps s) : (e.freeClaim n keep).Keeps s :=
  ((h.foldl fun _ _ h => h.changeSeg).map rfl).reportDeletion

theorem Ev.Keeps.trip {n : Nat} {cause : TripCause} (h : e.Keeps s) : (e.trip n cause).Keeps s := by
  unfold Ev.trip
  split
  · exact h
  · split
    · have permits := h.foldl (bs := e.st.segsOf n) (f := fun e i => e.changeSeg i fun x => { x with permit := false })
        fun _ _ h => h.changeSeg
      exact ((permits.change fun h => h.modClaim.revise).touchLoc.touchLoc.map rfl).enqueue.log.offer
    · exact h

theorem Ev.Keeps.tripWhere {test : Transfer → Bool} {cause : TripCause} (h : e.Keeps s) :
    (e.tripWhere test cause).Keeps s := h.foldl fun _ _ h => h.trip

theorem Ev.Keeps.judge {n : Nat} {after : Bool} (h : e.Keeps s) : (e.judge n after).Keeps s := by
  rcases Ev.judge_cases e n after with hj | hj | hj <;> rw [hj]
  · exact h
  · exact h.trip
  · exact h.trip

theorem Ev.Keeps.judgeWhere {test : Claim → Transfer → Bool} (h : e.Keeps s) : (e.judgeWhere test).Keeps s :=
  h.foldl fun _ _ h => h.judge

/-! ### The Condition Monitor's levels and orders -/

theorem Ev.Keeps.setOrder {i : BinIx} {o : Order} {c x m : Nat} (h : e.Keeps s) : (e.setOrder i o c x m).Keeps s :=
  (h.map rfl).offer.enqueue

theorem Ev.Keeps.issueOrder {i : BinIx} {l : Level} (h : e.Keeps s) : (e.issueOrder i l).Keeps s := by
  unfold Ev.issueOrder
  split
  · exact h.setOrder.log
  · exact h

theorem Ev.Keeps.setLevel {i : BinIx} {l : Level} (h : e.Keeps s) : (e.setLevel i l).Keeps s := by
  have told : ((((e.map fun s => (s.modCond i fun b => { b with level := l }.save).modBin i fun b =>
      { b with level := l }).touch (.bin i)).enqueue ⟨.condition, i⟩)).Keeps s := (h.map rfl).touch.enqueue
  refine h.ite ?_
  split
  · exact told.offer.log.tripWhere.issueOrder
  · exact told.offer.log.issueOrder.ite told.offer.log
  · exact told.offer.log

theorem Ev.Keeps.formBin {i : BinIx} (h : e.Keeps s) : (e.formBin i).Keeps s :=
  h.ite (Ev.Keeps.setLevel ((h.map rfl).map rfl))

theorem Ev.Keeps.bottomChanged {i : BinIx} (h : e.Keeps s) : (e.bottomChanged i).Keeps s :=
  Ev.Keeps.setLevel (h.map rfl)

theorem Ev.Keeps.binEmptied {i : BinIx} (h : e.Keeps s) : (e.binEmptied i).Keeps s := by
  unfold Ev.binEmptied
  dsimp only
  split
  · exact h.setLevel.map rfl
  · exact (h.setLevel.map rfl).setOrder

theorem Ev.Keeps.outboundStarted {i : BinIx} {x m : Nat} (h : e.Keeps s) : (e.outboundStarted i x m).Keeps s :=
  Ev.Keeps.ite (h.map rfl).setOrder (h.map rfl)

theorem Ev.Keeps.outboundClosed {i : BinIx} {x m d : Nat} (h : e.Keeps s) : (e.outboundClosed i x m d).Keeps s := by
  have closed : (e.map (·.modCond i fun b => { b with outbound := none })).Keeps s := h.map rfl
  exact .ite (.ite (closed.map rfl) (closed.map rfl).setOrder) (closed.setOrder.ite closed)

/-! ### Bins, pits and the balance -/

theorem Ev.Keeps.modBalance {f : Balance → Balance} (h : e.Keeps s) : (e.modBalance f).Keeps s := (h.map rfl).enqueue

theorem Ev.Keeps.openBalance (h : e.Keeps s) : e.openBalance.Keeps s := h.modBalance

theorem Ev.Keeps.settleBin {i : BinIx} {old : BinRec} {left : Bool} (h : e.Keeps s) :
    (e.settleBin i old left).Keeps s := by
  have judged {b c : Bool} {f : State → State} {x : Subject} {v : Int} (hf : (f e.st).watched = e.st.watched) :
      (((if b then (e.map f).log .overfill x v else e.map f).touchIf c (.bin i)).enqueue ⟨.bin, i⟩).Keeps s :=
    ((h.map hf).log.ite (h.map hf)).touchIf.enqueue
  unfold Ev.settleBin
  dsimp only
  split
  · exact (judged rfl).binEmptied
  · exact (judged rfl).bottomChanged
  · exact (judged rfl).bottomChanged.ite (judged rfl)
  · exact judged rfl

theorem Ev.Keeps.settlePit {i : PitIx} {old : PitRec} (h : e.Keeps s) : (e.settlePit i old).Keeps s :=
  Ev.Keeps.enqueue (.touchIf (.ite (h.map rfl).log (h.map rfl)))

theorem Ev.Keeps.liftAtEmpty {i : BinIx} (h : e.Keeps s) : (e.liftAtEmpty i).Keeps s := by
  unfold Ev.liftAtEmpty
  dsimp only
  split
  · exact .ite (h.map rfl).touch.offer.log h
  · exact h

theorem Ev.Keeps.releaseBin {i : BinIx} {m : Nat} {r : Bool} (h : e.Keeps s) : (e.releaseBin i m r).1.Keeps s := by
  unfold Ev.releaseBin
  dsimp only
  split
  · exact h
  · split
    · exact h
    · exact Ev.Keeps.settleBin (.ite (h.map rfl).release.liftAtEmpty (h.map rfl).release)

theorem Ev.Keeps.releasePit {i : PitIx} {m : Nat} {r : Bool} (h : e.Keeps s) : (e.releasePit i m r).1.Keeps s := by
  unfold Ev.releasePit
  dsimp only
  split
  · exact h
  · split
    · exact h
    · exact Ev.Keeps.settlePit (Ev.Keeps.release (h.map (by split <;> rfl)))

theorem Ev.Keeps.fillCore {i : BinIx} {n : Nat} {o : Option Nat} {g : Origin} {ps : List Part} (h : e.Keeps s) :
    (e.fillCore i n o g ps).Keeps s := by
  unfold Ev.fillCore
  dsimp only
  split
  · split
    · exact h
    · exact ((h.map rfl).map rfl).add.release
  · refine .touch ?_
    split
    · exact h
    · exact ((h.map rfl).map rfl).add.release
  · refine .touch (.map ?_ rfl)
    split
    · exact h
    · exact ((h.map rfl).map rfl).add.release

theorem Ev.Keeps.fillBin {i : BinIx} {n : Nat} {o : Option Nat} {g : Origin} {ps : List Part} (h : e.Keeps s) :
    (e.fillBin i n o g ps).Keeps s := h.fillCore.settleBin

theorem Ev.Keeps.takeReject {ps : List Part} (h : e.Keeps s) : (e.takeReject ps).Keeps s := h.modBalance

theorem Ev.Keeps.turnBin {i : BinIx} {n : Nat} {o : Option Nat} {m : Nat} (h : e.Keeps s) :
    (e.turnBin i n o m).1.Keeps s := by
  unfold Ev.turnBin
  dsimp only
  split
  · exact h
  · split
    · exact h
    · exact (h.map rfl).release.fillCore.settleBin

theorem Ev.Keeps.pitReceive {i : PitIx} {n : Nat} (h : e.Keeps s) : (e.pitReceive i n).Keeps s := (h.map rfl).touch

theorem Ev.Keeps.pitEmpty {i : PitIx} (h : e.Keeps s) : (e.pitEmpty i).Keeps s := (h.map rfl).touch

theorem Ev.Keeps.pitLoad {i : PitIx} {l : Lot} (h : e.Keeps s) : (e.pitLoad i l).Keeps s :=
  (h.map rfl).settlePit.modBalance

/-! ### The Drying Unit -/

theorem Ev.Keeps.modDru {f : Dru → Dru} (h : e.Keeps s) : (e.modDru f).Keeps s := h.map rfl

theorem Ev.Keeps.feedDryer {ps : List Part} (h : e.Keeps s) : (e.feedDryer ps).Keeps s := by
  unfold Ev.feedDryer
  dsimp only
  split
  · exact h
  · exact h.modDru.add.release.touchIf.enqueue

theorem Ev.Keeps.releaseDryer {m : Nat} {r : Bool} (h : e.Keeps s) : (e.releaseDryer m r).1.Keeps s := by
  unfold Ev.releaseDryer
  dsimp only
  split
  · exact h
  · exact h.modDru.release.touchIf.enqueue

theorem Ev.Keeps.discrepancy {b : Batch} {m x t : Nat} {d : Int} (h : e.Keeps s) : (e.discrepancy b m x t d).Keeps s :=
  h.log.offer

theorem Ev.Keeps.batchOut {p : Port} {b : Batch} {m x : Nat} (h : e.Keeps s) : (e.batchOut p b m x).Keeps s :=
  (Ev.Keeps.ite h.discrepancy h).modBalance.modDru.touch.judgeWhere.commit.reply

/-! ### The Berth Unit -/

theorem Ev.Keeps.modBtu {f : Btu → Btu} (h : e.Keeps s) : (e.modBtu f).Keeps s := h.map rfl

theorem Ev.Keeps.fitPlan (h : e.Keeps s) : e.fitPlan.Keeps s := by
  have fitted {c : Prop} [Decidable c] {f : Btu → Btu} {k : NoticeKind} {body : List Byte} {ps : List Port} :
      (if c then e else ((e.modBtu f).touch .berth).offer ps k body).Keeps s := h.ite h.modBtu.touch.offer
  exact .ite fitted.tripWhere fitted

theorem Ev.Keeps.actOnPlan (h : e.Keeps s) : e.actOnPlan.Keeps s := h.fitPlan.judgeWhere

theorem Ev.Keeps.loadBarge {k : Nat} {ps : List Part} (h : e.Keeps s) : (e.loadBarge k ps).Keeps s := by
  unfold Ev.loadBarge
  dsimp only
  split
  · exact h
  · exact h.modBtu.add.release.touchIf.enqueue.fitPlan

theorem Ev.Keeps.takeStage {x : Nat} (h : e.Keeps s) : (e.takeStage x).Keeps s :=
  .enqueue (.ite h.modBtu.touchIf.actOnPlan h.modBtu.touchIf)

theorem Ev.Keeps.goStale (h : e.Keeps s) : e.goStale.Keeps s :=
  .offer (.ite h.modBtu.touch.tripWhere h.modBtu.touch)

theorem Ev.Keeps.takeTargets {ts : List Nat} (h : e.Keeps s) : (e.takeTargets ts).Keeps s :=
  h.ite h.modBtu.touch.judgeWhere

/-! ### The requests of the Drying Unit and the Berth Unit -/

theorem Ev.Keeps.closeFeed {p : Port} {body : List Byte} (h : e.Keeps s) : (Ev.closeFeed p body e).Keeps s := by
  unfold Ev.closeFeed
  repeat' split
  any_goals exact h.reply
  exact h.modDru.touch.commit.reply

theorem Ev.Keeps.reportBatchOut {p : Port} {body : List Byte} (h : e.Keeps s) :
    (Ev.reportBatchOut p body e).Keeps s := by
  unfold Ev.reportBatchOut
  repeat' split
  any_goals exact h.reply
  exact h.batchOut

theorem Ev.Keeps.reportStage {p : Port} {body : List Byte} (h : e.Keeps s) : (Ev.reportStage p body e).Keeps s := by
  unfold Ev.reportStage
  repeat' split
  any_goals exact h.reply
  exact h.takeStage.commit.reply

theorem Ev.Keeps.berthBarge {p : Port} {body : List Byte} (h : e.Keeps s) : (Ev.berthBarge p body e).Keeps s := by
  unfold Ev.berthBarge
  dsimp only
  repeat' split
  any_goals exact h.reply
  exact h.modBtu.touch.commit.reply

theorem Ev.Keeps.amendPlan {p : Port} {body : List Byte} (h : e.Keeps s) : (Ev.amendPlan p body e).Keeps s := by
  unfold Ev.amendPlan
  dsimp only
  repeat' split
  any_goals exact h.reply
  exact h.takeTargets.commit.reply

theorem Ev.Keeps.closeBarge {p : Port} {body : List Byte} (h : e.Keeps s) : (Ev.closeBarge p body e).Keeps s := by
  unfold Ev.closeBarge
  dsimp only
  repeat' split
  any_goals exact h.reply
  exact h.modBalance.release.applyChangeSet.modBtu.touch.commit.reply

/-! ### The Route Controller's requests -/

theorem Ev.Keeps.takeRoute {p : Port} {r : Route} (h : e.Keeps s) : (e.takeRoute p r).Keeps s :=
  .reply ((h.map rfl).foldl fun _ _ h => h.changeSeg)

theorem Ev.Keeps.claimRoute {p : Port} {body : List Byte} (h : e.Keeps s) : (Ev.claimRoute p body e).Keeps s := by
  unfold Ev.claimRoute
  repeat' split
  any_goals exact h.reply
  all_goals exact h.takeRoute

theorem Ev.Keeps.beginTransfer {p : Port} {n : Nat} {t : Transfer} (h : e.Keeps s) :
    (e.beginTransfer p n t).Keeps s := by
  have started {ctr : Nat} {w : Bool} :
      ((((e.map fun s => { s with rc := { s.rc with transferCtr := ctr, wrapped := w } }).map fun s =>
        (s.modClaim n fun c => { c with state := .running t }).revise (.claim n)).setInbound t.dest
          (some n)).setOutbound t.source (some n)).Keeps s :=
    ((h.map rfl).change fun h => h.modClaim.revise).setInbound.setOutbound
  unfold Ev.beginTransfer
  dsimp only
  split
  · exact ((started.foldl fun _ _ h => h.changeSeg).outboundStarted.map rfl).enqueue.commit.reply
  · exact ((started.foldl fun _ _ h => h.changeSeg).map rfl).enqueue.commit.reply

theorem Ev.Keeps.startTransfer {p : Port} {body : List Byte} (h : e.Keeps s) : (Ev.startTransfer p body e).Keeps s := by
  unfold Ev.startTransfer
  dsimp only
  repeat' split
  any_goals exact h.reply
  exact h.beginTransfer

theorem State.Keeps.modTransfer {n : Nat} {f : Transfer → Transfer} (h : t.Keeps s) : (t.modTransfer n f).Keeps s :=
  h.modClaim

theorem Ev.Keeps.flagTransfer {n : Nat} {f : Transfer → Transfer} (h : e.Keeps s) : (e.flagTransfer n f).Keeps s :=
  h.change fun h => h.modTransfer.revise

theorem Ev.Keeps.releaseFrom {l : Loc} {m : Nat} {r : Bool} (h : e.Keeps s) : (e.releaseFrom l m r).1.Keeps s := by
  cases l with
  | bin i => exact h.releaseBin
  | pit i => exact h.releasePit
  | dryer => exact h.releaseDryer
  | berth => exact h
  | reject => exact h

theorem Ev.Keeps.deliverTo {n : Nat} {t : Transfer} {ps : List Part} (h : e.Keeps s) : (e.deliverTo n t ps).Keeps s := by
  refine h.ite ?_
  split
  · exact h.fillBin
  · exact h.feedDryer
  · exact h.loadBarge
  · exact h.takeReject
  · exact h

theorem Ev.Keeps.shortfall {n : Nat} {t : Transfer} {a b : Nat} (h : e.Keeps s) : (e.shortfall n t a b).Keeps s :=
  .ite h.flagTransfer.log h

theorem Ev.Keeps.overrun {n : Nat} {t : Transfer} {b : Option Int} {r : Nat} (h : e.Keeps s) :
    (e.overrun n t b r).Keeps s := by
  unfold Ev.overrun
  split
  · exact h
  · exact .ite (.ite (h.ite h.flagTransfer.log).flagTransfer (h.ite h.flagTransfer.log)) h

/-- The source of an increment gives its parts: by a turn of the bin for a self route (R110), else by its owner's release
(R107, step 1). -/
def Ev.drawIncrement (e : Ev) (n : Nat) (t : Transfer) (mass : Nat) : Ev × List Part :=
  if t.isSelf then
    match t.source with
    | .bin i => e.turnBin i n t.openLayer mass
    | _ => (e, [])
  else e.releaseFrom t.source mass (t.dest == .reject)

/-- An increment up to the judgement of its own transfer (R107, R108, R109): `d` is what its source gave. -/
def Ev.applyIncrement (e : Ev) (n : Nat) (t : Transfer) (mass : Nat) (d : Ev × List Part) : Ev :=
  let f := if t.isSelf then d.1 else (d.1.shortfall n t mass (totalMass d.2)).deliverTo n t d.2
  ((f.applyChangeSet.map (·.modTransfer n (·.carry d.2))).overrun n t (e.st.leastHard t) (totalMass d.2)).judge n true

/-- An increment is its draw, its own transfer's part and the judgement of the transfers it meets. -/
theorem Ev.increment_eq (e : Ev) (n : Nat) (t : Transfer) (mass : Nat) :
    e.increment n t mass =
      if totalMass (e.drawIncrement n t mass).2 = 0 then e.applyIncrement n t mass (e.drawIncrement n t mass)
      else (e.applyIncrement n t mass (e.drawIncrement n t mass)).judgeWhere fun c o => c.number != n && t.meets o := rfl

theorem Ev.Keeps.drawIncrement {n : Nat} {t : Transfer} {m : Nat} (h : e.Keeps s) : (e.drawIncrement n t m).1.Keeps s := by
  unfold Ev.drawIncrement
  split
  · split
    · exact h.turnBin
    · exact h
  · exact h.releaseFrom

theorem Ev.Keeps.applyIncrement {n : Nat} {t : Transfer} {m : Nat} {d : Ev × List Part} (h : d.1.Keeps s) :
    (e.applyIncrement n t m d).Keeps s :=
  ((Ev.Keeps.ite h h.shortfall.deliverTo).applyChangeSet.change fun h => h.modTransfer).overrun.judge

theorem Ev.Keeps.increment {n : Nat} {t : Transfer} {m : Nat} (h : e.Keeps s) : (e.increment n t m).Keeps s := by
  rw [Ev.increment_eq]
  exact h.drawIncrement.applyIncrement.ite h.drawIncrement.applyIncrement.judgeWhere

theorem Ev.Keeps.reportMass {p : Port} {body : List Byte} (h : e.Keeps s) : (Ev.reportMass p body e).Keeps s := by
  unfold Ev.reportMass
  repeat' split
  any_goals exact h.reply
  exact .reply (.commit (.increment (.change h fun h => h.modTransfer)))

/-- The recent ring holds at most 16 closed transfers after one has joined (R114). -/
theorem pushRing_length (ring : List ClosedTransfer) (c : ClosedTransfer) (h : ring.length ≤ 16) :
    (pushRing ring c).length ≤ 16 := by
  simp only [pushRing, List.length_drop, List.length_append, List.length_singleton]
  omega

theorem State.Keeps.pushRing {c : ClosedTransfer} (h : t.Keeps s) :
    State.Keeps { t with rc := { t.rc with ring := pushRing t.rc.ring c } } s :=
  { h with ring := fun hs => pushRing_length _ _ (h.ring hs) }

theorem Ev.Keeps.closeTransfer {c : Claim} {t : Transfer} (h : e.Keeps s) : (e.closeTransfer c t).Keeps s := by
  have closed {x : ClosedTransfer} :
      (((e.map fun s => { s with rc := { s.rc with ring := Machine.pushRing s.rc.ring x } }).setInbound t.dest
        none).setOutbound t.source none).Keeps s := (h.change fun h => h.pushRing).setInbound.setOutbound
  unfold Ev.closeTransfer
  dsimp only
  split
  · exact closed.outboundClosed.freeClaim.offer
  · exact closed.freeClaim.offer

theorem Ev.Keeps.releaseClaim {p : Port} {body : List Byte} (h : e.Keeps s) : (Ev.releaseClaim p body e).Keeps s := by
  unfold Ev.releaseClaim
  repeat' split
  any_goals exact h.reply
  · exact h.freeClaim.reply
  · exact h.trip.commit.reply

theorem Ev.Keeps.segmentFault {i : SegIx} (h : e.Keeps s) : (e.segmentFault i).Keeps s :=
  (Ev.Keeps.ite h.changeSeg.freeClaim h.changeSeg).offer.log

theorem Ev.Keeps.recordMotion {i : SegIx} {r : Bool} (h : e.Keeps s) : (e.recordMotion i r).Keeps s :=
  .ite (h.map rfl) h.changeSeg

theorem Ev.Keeps.reportMotion {p : Port} {body : List Byte} (h : e.Keeps s) : (Ev.reportMotion p body e).Keeps s := by
  unfold Ev.reportMotion
  dsimp only
  repeat' split
  any_goals exact h.reply
  · exact h.recordMotion.segmentFault.reply
  · exact h.recordMotion.reply

theorem Ev.Keeps.clearFault {p : Port} {body : List Byte} (h : e.Keeps s) : (Ev.clearFault p body e).Keeps s := by
  unfold Ev.clearFault
  dsimp only
  repeat' split
  any_goals exact h.reply
  exact h.changeSeg.reply

theorem Ev.Keeps.silenceClaims {p : Port} (h : e.Keeps s) : (e.silenceClaims p).Keeps s :=
  (h.foldl fun _ _ h => h.trip).foldl fun _ _ h => h.freeClaim

theorem Ev.Keeps.dropSeg {i : SegIx} (h : e.Keeps s) : (e.dropSeg i).Keeps s := h.ite h.changeSeg

theorem Ev.Keeps.dropClaims (h : e.Keeps s) : e.dropClaims.Keeps s := by
  have freed : ((List.finRange 20).foldl Ev.dropSeg e).Keeps s := h.foldl fun _ _ h => h.dropSeg
  unfold Ev.dropClaims
  generalize (List.finRange 20).foldl Ev.dropSeg e = f at freed ⊢
  exact .map (freed.foldl fun _ _ h => h.reportDeletion) rfl

/-! ### The Inventory Unit's requests -/

theorem Ev.Keeps.finishBin {p : Port} {i : BinIx} (h : e.Keeps s) : (e.finishBin p i).Keeps s := h.commit.reply

theorem Ev.Keeps.finishPit {p : Port} {i : PitIx} (h : e.Keeps s) : (e.finishPit p i).Keeps s := h.commit.reply

theorem Ev.Keeps.holdPlaced {i : BinIx} {l : HoldLevel} {p : Port} (h : e.Keeps s) : (e.holdPlaced i l p).Keeps s :=
  (h.map rfl).touch.tripWhere.tripWhere.offer.log

theorem Ev.Keeps.placeHold {p : Port} {body : List Byte} (h : e.Keeps s) : (Ev.placeHold p body e).Keeps s := by
  unfold Ev.placeHold
  dsimp only
  repeat' split
  any_goals exact h.reply
  · exact h.holdPlaced.finishBin
  · exact h.finishBin
  · exact h.holdPlaced.finishBin
  · exact h.finishBin

theorem Ev.Keeps.holdReleased {i : BinIx} (h : e.Keeps s) : (e.holdReleased i).Keeps s := (h.map rfl).touch.offer.log

theorem Ev.Keeps.releaseHold {p : Port} {body : List Byte} (h : e.Keeps s) : (Ev.releaseHold p body e).Keeps s := by
  unfold Ev.releaseHold
  dsimp only
  repeat' split
  any_goals exact h.reply
  exact h.holdReleased.finishBin

theorem Ev.Keeps.ceilingSet {i : BinIx} {c : Nat} {r : Bool} (h : e.Keeps s) : (e.ceilingSet i c r).Keeps s :=
  .ite (h.map rfl).touch.settleBin.judgeWhere (h.map rfl).touch.settleBin

theorem Ev.Keeps.setCeiling {p : Port} {body : List Byte} (h : e.Keeps s) : (Ev.setCeiling p body e).Keeps s := by
  unfold Ev.setCeiling
  dsimp only
  repeat' split
  any_goals exact h.reply
  · exact h.finishBin
  · exact h.ceilingSet.finishBin

theorem Ev.Keeps.lockTo {l : Bool} {p : Port} {body : List Byte} (h : e.Keeps s) : (Ev.lockTo l p body e).Keeps s := by
  unfold Ev.lockTo
  dsimp only
  repeat' split
  any_goals exact h.reply
  · exact h.finishBin
  · exact (h.map rfl).touch.finishBin

theorem Ev.Keeps.freezeCeilings {p : Port} {body : List Byte} (h : e.Keeps s) :
    (Ev.freezeCeilings p body e).Keeps s := by
  unfold Ev.freezeCeilings
  split
  · exact (h.map rfl).reply
  · exact h.reply

theorem Ev.Keeps.bookAdjustment {x b : Nat} {ls : List Layer} (h : e.Keeps s) : (e.bookAdjustment x b ls).Keeps s :=
  h.modBalance.release.applyChangeSet

theorem Ev.Keeps.adjustBin {i : BinIx} {a : Adjustment} (h : e.Keeps s) : (e.adjustBin i a).Keeps s :=
  (h.map rfl).settleBin.touch.bookAdjustment

theorem Ev.Keeps.adjustPit {i : PitIx} {a : Adjustment} (h : e.Keeps s) : (e.adjustPit i a).Keeps s :=
  (h.map rfl).settlePit.touch.bookAdjustment

theorem Ev.Keeps.tryAdjustBin {p : Port} {i : BinIx} {a : Adjustment} (h : e.Keeps s) : (e.tryAdjustBin p i a).Keeps s :=
  h.reply.ite (h.reply.ite (h.reply.ite (h.reply.ite h.adjustBin.finishBin)))

theorem Ev.Keeps.tryAdjustPit {p : Port} {i : PitIx} {a : Adjustment} (h : e.Keeps s) : (e.tryAdjustPit p i a).Keeps s :=
  h.reply.ite (h.reply.ite (h.reply.ite (h.reply.ite h.adjustPit.finishPit)))

theorem Ev.Keeps.adjustMass {p : Port} {body : List Byte} (h : e.Keeps s) : (Ev.adjustMass p body e).Keeps s := by
  unfold Ev.adjustMass
  repeat' split
  any_goals exact h.reply
  · exact h.tryAdjustBin
  · exact h.tryAdjustPit

theorem Ev.Keeps.acceptBalance {p : Port} {body : List Byte} (h : e.Keeps s) : (Ev.acceptBalance p body e).Keeps s := by
  unfold Ev.acceptBalance
  repeat' split
  any_goals exact h.reply
  exact Ev.Keeps.reply (e := e.settleBalance) h.modBalance

/-! ### Tickets and lots -/

theorem State.Keeps.modTicket {n : Nat} {f : Ticket → Ticket} (h : t.Keeps s) : (t.modTicket n f).Keeps s := h.same rfl

theorem Ev.Keeps.changeTicket {n : Nat} {f : Ticket → Ticket} (h : e.Keeps s) : (e.changeTicket n f).Keeps s :=
  h.change fun h => h.modTicket.revise

theorem Ev.Keeps.removeTicket {x : Ticket} (h : e.Keeps s) : (e.removeTicket x).Keeps s :=
  (h.map rfl).reportDeletion.enqueue

theorem Ev.Keeps.onTicket {p : Port} {n rev : Nat} {ok : TicketState → Bool} {act : Ticket → Ev} (h : e.Keeps s)
    (hact : ∀ x, (act x).Keeps s) : (e.onTicket p n rev ok act).Keeps s := by
  unfold Ev.onTicket
  repeat' split
  any_goals exact h.reply
  exact hact _

theorem Ev.Keeps.enterTicket {p : Port} {c : Nat} {x : Text} (h : e.Keeps s) : (e.enterTicket p c x).Keeps s :=
  .reply (.enqueue (.map (.enqueue (h.map rfl)) rfl))

theorem Ev.Keeps.openTicket {p : Port} {body : List Byte} (h : e.Keeps s) : (Ev.openTicket p body e).Keeps s := by
  unfold Ev.openTicket
  repeat' split
  any_goals exact h.reply
  exact h.enterTicket

theorem Ev.Keeps.enterSample {p : Port} {body : List Byte} (h : e.Keeps s) : (Ev.enterSample p body e).Keeps s := by
  unfold Ev.enterSample
  split
  · exact h.onTicket fun _ => h.reply.ite h.changeTicket.reply
  · exact h.reply

theorem Ev.Keeps.assignPit {p : Port} {body : List Byte} (h : e.Keeps s) : (Ev.assignPit p body e).Keeps s := by
  unfold Ev.assignPit
  split
  · refine h.onTicket fun _ => ?_
    split
    · exact h.reply
    · exact h.reply.ite (h.reply.ite h.pitReceive.changeTicket.reply)
  · exact h.reply

theorem Ev.Keeps.reportDumped {p : Port} {body : List Byte} (h : e.Keeps s) : (Ev.reportDumped p body e).Keeps s := by
  unfold Ev.reportDumped
  split
  · exact h.onTicket fun _ => h.changeTicket.reply
  · exact h.reply

theorem Ev.Keeps.voidCapture {n : Nat} (h : e.Keeps s) : (e.voidCapture n).Keeps s := by
  unfold Ev.voidCapture
  split
  · exact .ite (h.map rfl).reply h
  · exact h

theorem Ev.Keeps.voidTicket {p : Port} {body : List Byte} (h : e.Keeps s) : (Ev.voidTicket p body e).Keeps s := by
  unfold Ev.voidTicket
  split
  · refine h.onTicket fun _ => ?_
    dsimp only
    split
    · exact h.pitEmpty.voidCapture.removeTicket.reply
    · exact h.voidCapture.removeTicket.reply
  · exact h.reply

theorem Ev.Keeps.enterLot {l : Lot} (h : e.Keeps s) : (e.enterLot l).Keeps s := (h.map rfl).enqueueLot

theorem Ev.Keeps.recordGross {p : Port} {n m : Nat} (h : e.Keeps s) : (e.recordGross p n m).Keeps s :=
  h.changeTicket.reply

theorem Ev.Keeps.closeTicket {p : Port} {x : Ticket} {g m : Nat} (h : e.Keeps s) : (e.closeTicket p x g m).Keeps s := by
  unfold Ev.closeTicket
  dsimp only
  split
  · split
    · exact h.removeTicket.pitEmpty.reply
    · exact h.removeTicket.reply
  · split
    · exact h.enterLot.removeTicket.pitLoad.reply
    · exact h.enterLot.removeTicket.reply

theorem Ev.Keeps.recordTare {p : Port} {n m : Nat} (h : e.Keeps s) : (e.recordTare p n m).Keeps s := by
  unfold Ev.recordTare
  split
  · exact h.reply
  · exact h.reply.ite h.closeTicket

/-! ### The Weighbridge Unit -/

/-- The window holds at most 16 raw masses after one has joined (R23). -/
theorem pushWindow_length (w : List Int) (raw : Int) (h : w.length ≤ 16) : (pushWindow w raw).length ≤ 16 := by
  simp only [pushWindow, List.length_drop, List.length_append, List.length_singleton]
  omega

/-- A change of the Weighbridge Unit that keeps its window within 16 raw masses keeps what is watched. -/
theorem Ev.Keeps.modWbu {f : Wbu → Wbu} (h : e.Keeps s)
    (hf : e.st.wbu.window.length ≤ 16 → (f e.st.wbu).window.length ≤ 16) : (e.modWbu f).Keeps s :=
  h.change fun h => { h with window := fun hs => hf (h.window hs) }

theorem Ev.Keeps.zeroDrift {c : Int} (h : e.Keeps s) : (e.zeroDrift c).Keeps s := (h.modWbu id).log.offer

theorem Ev.Keeps.trackZero {c : Int} {b : Bool} (h : e.Keeps s) : (e.trackZero c b).Keeps s :=
  .ite (h.zeroDrift.ite (h.modWbu id)) h

theorem Ev.Keeps.endCapture {p : Port} {c : Code} (h : e.Keeps s) : (e.endCapture p c).Keeps s := (h.modWbu id).reply

theorem Ev.Keeps.completeCapture {p : Port} {k : CaptureKind} {n : Nat} (h : e.Keeps s) :
    (e.completeCapture p k n).Keeps s := by
  refine h.endCapture.ite ?_
  cases k with
  | gross => exact (h.modWbu id).recordGross
  | tare => exact (h.modWbu id).recordTare

theorem Ev.Keeps.capture {p : Port} {k : CaptureKind} {n : Nat} (h : e.Keeps s) : (e.capture p k n).Keeps s := by
  refine h.reply.ite (h.reply.ite ?_)
  split
  any_goals exact h.reply
  · exact h.completeCapture
  · exact h.modWbu id

theorem Ev.Keeps.captureGross {p : Port} {body : List Byte} (h : e.Keeps s) : (Ev.captureGross p body e).Keeps s := by
  unfold Ev.captureGross
  split
  · exact h.onTicket fun _ => h.capture
  · exact h.reply

theorem Ev.Keeps.captureTare {p : Port} {body : List Byte} (h : e.Keeps s) : (Ev.captureTare p body e).Keeps s := by
  unfold Ev.captureTare
  split
  · exact h.onTicket fun _ => h.capture
  · exact h.reply

theorem Ev.Keeps.sampleCapture (h : e.Keeps s) : e.sampleCapture.Keeps s := by
  unfold Ev.sampleCapture
  split
  · exact h
  · split
    · exact h.completeCapture
    · exact h.endCapture
    · exact h.endCapture
    · exact h
    · exact h

theorem Ev.Keeps.takeSample {c : ScaleConfig} {x : Int} (h : e.Keeps s) : (e.takeSample c x).Keeps s :=
  (h.modWbu (pushWindow_length _ _)).trackZero.sampleCapture

theorem Ev.Keeps.zeroBridge {p : Port} {body : List Byte} (h : e.Keeps s) : (Ev.zeroBridge p body e).Keeps s :=
  h.reply.ite (h.reply.ite (h.reply.ite (h.reply.ite (h.modWbu id).reply)))

theorem Ev.Keeps.bridgeStale (h : e.Keeps s) : e.bridgeStale.Keeps s := by
  have stale := h.modWbu (f := fun w => { w with bridge := .stale, window := [], timer := none }) fun _ => Nat.zero_le _
  refine stale.ite ?_
  split
  · exact stale.log.offer.endCapture
  · exact stale.log.offer

/-! ### The cable bus and surveys -/

/-- A change of the Condition Monitor that leaves the survey log alone keeps what is watched. -/
theorem Ev.Keeps.modCdm {f : Cdm → Cdm} (h : e.Keeps s) (hf : (f e.st.cdm).log = e.st.cdm.log) : (e.modCdm f).Keeps s :=
  h.change fun h => { h with log := fun hs => Nat.le_trans (Nat.le_of_eq (congrArg List.length hf)) (h.log hs) }

theorem Ev.Keeps.countNoAnswer {a : Nat} (h : e.Keeps s) : (e.countNoAnswer a).Keeps s := by
  unfold Ev.countNoAnswer
  split
  · exact h
  · exact .ite (h.modCdm rfl).log (h.modCdm rfl)

theorem Ev.Keeps.takeReply {a : Nat} {cs : Option (List Byte)} (h : e.Keeps s) : (e.takeReply a cs).Keeps s := by
  unfold Ev.takeReply
  split
  · exact h.modCdm rfl
  · exact h.countNoAnswer

theorem Ev.Keeps.pollBins (h : e.Keeps s) : e.pollBins.Keeps s := by
  have formed : ((List.finRange 28).foldl (fun e i => if e.st.inScope i then e else e.formBin i) e).Keeps s :=
    h.foldl fun _ _ h => h.ite h.formBin
  unfold Ev.pollBins
  generalize (List.finRange 28).foldl (fun e i => if e.st.inScope i then e else e.formBin i) e = f at formed ⊢
  exact formed.modCdm rfl

theorem Ev.Keeps.nextRead {xs : List Nat} (h : e.Keeps s) : (e.nextRead xs).Keeps s := by
  unfold Ev.nextRead
  split
  · exact h.modCdm rfl
  · exact h.pollBins

theorem Ev.Keeps.convertEnd {b : Bool} (h : e.Keeps s) : (e.convertEnd b).Keeps s :=
  .ite (h.modCdm rfl) (h.foldl fun _ _ h => h.countNoAnswer).pollBins

/-- An entry that joins the survey log leaves it within 8 (R151). -/
theorem Cdm.pushEntry_log_length (c : Cdm) (x : SurveyEntry) : (c.pushEntry x).log.length ≤ 8 := by
  simp only [Cdm.pushEntry, List.length_take]
  omega

theorem Ev.Keeps.pushEntry {f : Cdm → Cdm} {x : SurveyEntry} (h : e.Keeps s)
    (hf : (f e.st.cdm).log = (e.st.cdm.pushEntry x).log) : (e.modCdm f).Keeps s :=
  h.change fun h =>
    { h with log := fun _ => Nat.le_trans (Nat.le_of_eq (congrArg List.length hf)) (Cdm.pushEntry_log_length _ x) }

theorem Ev.Keeps.endSurvey {r : SurveyRun} {x : SurveyStatus} {l : Option FailLoc} (h : e.Keeps s) :
    (e.endSurvey r x l).Keeps s := (h.pushEntry rfl).enqueue.log.offer

theorem Ev.Keeps.stepSurvey {r : SurveyRun} (h : e.Keeps s) : (e.stepSurvey r).Keeps s := by
  unfold Ev.stepSurvey
  split
  · exact h.endSurvey
  · exact h.modCdm rfl

theorem Ev.Keeps.nodeDone {r : SurveyRun} {a : Nat} (h : e.Keeps s) : (e.nodeDone r a).Keeps s := by
  unfold Ev.nodeDone
  dsimp only
  split
  · exact .stepSurvey (.ite (h.modCdm rfl) (h.modCdm rfl).formBin)
  · exact .stepSurvey (h.modCdm rfl)

theorem Ev.Keeps.attemptFailed {r : SurveyRun} {a : Nat} (h : e.Keeps s) : (e.attemptFailed r a).Keeps s :=
  .ite (h.modCdm rfl) h.nodeDone

theorem Ev.Keeps.judgeNode {r : SurveyRun} {a : Nat} (h : e.Keeps s) : (e.judgeNode r a).Keeps s := h.nodeDone

theorem Ev.Keeps.startSurvey {p : Port} {body : List Byte} (h : e.Keeps s) : (Ev.startSurvey p body e).Keeps s := by
  unfold Ev.startSurvey
  split
  · exact h.reply
  · exact h.reply.ite (.reply (.stepSurvey (.enqueue (h.modCdm rfl))))

theorem Ev.Keeps.abortSurvey {p : Port} {body : List Byte} (h : e.Keeps s) : (Ev.abortSurvey p body e).Keeps s := by
  unfold Ev.abortSurvey
  repeat' split
  any_goals exact h.reply
  exact h.endSurvey.reply

theorem Ev.Keeps.freeBus (h : e.Keeps s) : e.freeBus.Keeps s := h.modCdm rfl

theorem Ev.Keeps.readEnd {o : BusOwner} {a : Nat} {x : Option (List Byte)} (h : e.Keeps s) : (e.readEnd o a x).Keeps s := by
  unfold Ev.readEnd
  dsimp only
  split
  · split
    · exact h.freeBus.takeReply.nextRead
    · exact h.freeBus.takeReply
  · exact h.freeBus.takeReply.judgeNode.ite h.freeBus.takeReply.attemptFailed
  · exact h.freeBus.takeReply
  · exact h.freeBus.takeReply

theorem Ev.Keeps.selfCheckEnd {o : BusOwner} {a : Nat} {b : Bool} (h : e.Keeps s) : (e.selfCheckEnd o a b).Keeps s := by
  have checked : (if b then e.freeBus else e.freeBus.countNoAnswer a).Keeps s := h.freeBus.ite h.freeBus.countNoAnswer
  unfold Ev.selfCheckEnd
  dsimp only
  split
  · exact .ite (checked.modCdm rfl) checked.attemptFailed
  · exact checked

/-! ### Reading the mirror -/

/-- Reading `n` values gives `n` values. -/
theorem Parse.many_length {α : Type} {p : Parse α} {n : Nat} {bs rest : List Byte} {xs : List α}
    (h : Parse.many p n bs = some (xs, rest)) : xs.length = n := by
  induction n generalizing bs rest xs with
  | zero => cases h; rfl
  | succ n ih =>
    simp only [Parse.many, bind, StateT.bind, Option.bind_eq_some_iff, Prod.exists] at h
    obtain ⟨x, bs', _, ys, bs'', hys, hxs⟩ := h
    cases hxs
    simp [ih hys]

/-- A number that a reader takes within a range lies in it. -/
theorem Parse.within_le {w lo hi n : Nat} {bs rest : List Byte} (h : Parse.within w lo hi bs = some (n, rest)) : n ≤ hi := by
  simp only [Parse.within, bind, StateT.bind, Option.bind_eq_some_iff, Prod.exists] at h
  obtain ⟨m, bs', _, hm⟩ := h
  split at hm
  · next hr => cases hm; exact hr.2
  · cases hm

/-- An event ring read from the mirror holds at most 64 events. -/
theorem Parse.ring_length {bs rest : List Byte} {xs : List Event} (h : Parse.ring bs = some (xs, rest)) :
    xs.length ≤ 64 := by
  simp only [Parse.ring, bind, StateT.bind, Option.bind_eq_some_iff, Prod.exists] at h
  obtain ⟨n, bs', hn, hxs⟩ := h
  exact Nat.le_trans (Nat.le_of_eq (Parse.many_length hxs)) (Parse.within_le hn)

/-- A survey log read from the mirror holds at most 8 entries. -/
theorem Parse.survey_length {bs rest : List Byte} {x : List SurveyEntry × Nat × Option SurveyRun}
    (h : Parse.survey bs = some (x, rest)) : x.1.length ≤ 8 := by
  simp only [Parse.survey, bind, StateT.bind, Option.bind_eq_some_iff, Prod.exists] at h
  obtain ⟨n, bs1, hn, log, bs2, hlog, c, bs3, _, b, bs4, _, hx⟩ := h
  have hle : log.length ≤ 8 := Nat.le_trans (Nat.le_of_eq (Parse.many_length hlog)) (Parse.within_le hn)
  split at hx
  · simp only [bind, StateT.bind, Option.bind_eq_some_iff, Prod.exists] at hx
    obtain ⟨r, bs5, _, hr⟩ := hx
    cases hr; exact hle
  · cases hx; exact hle

/-- A slot judged good has a body that its reader takes whole (R172). -/
theorem Store.judge_record {α : Type} {m : Store} {id : SlotId} {p : Parse α} {rev : Nat} {x : α}
    (h : m.judge id p = .record rev x) : ∃ bs, p bs = some (x, []) := by
  have all_eq {bs : List Byte} (h : p.all bs = some x) : p bs = some (x, []) := by
    unfold Parse.all at h
    split at h
    · next hp => cases h; exact hp
    · cases h
  unfold Store.judge judgeSlot at h
  dsimp only at h
  split at h
  · cases h
  · split at h
    · cases h
    · split at h
      · cases h
      · split at h
        · cases h
        · split at h
          · next hx => cases h; exact ⟨_, all_eq hx⟩
          · cases h

/-- The ring a start-up takes back holds at most 64 events (R178). -/
theorem Store.judge_ring_length (m : Store) (id : SlotId) : ((m.judge id Parse.ring).value []).length ≤ 64 := by
  unfold Judged.value
  split
  · next h => obtain ⟨bs, hbs⟩ := Store.judge_record h; exact Parse.ring_length hbs
  · exact Nat.zero_le _

/-! ### Configuration and the event ring at start-up -/

theorem Evr.enterAll_ring_length (xs : List Event) (r : Evr) (h : r.ring.length ≤ 64) :
    (xs.foldl (fun r x => r.enter x.time x.kind x.subject x.value) r).ring.length ≤ 64 :=
  foldl_keeps (fun r : Evr => r.ring.length ≤ 64) _ (fun r _ hr => Evr.enter_ring_length r _ _ _ _ hr) xs r h

theorem Ev.Keeps.enterHeld (h : e.Keeps s) : e.enterHeld.Keeps s :=
  (h.change fun h => h.modEvr (Evr.enterAll_ring_length _ { e.st.evr with held := [] })).enqueue.enqueue

theorem State.Keeps.takeConfig {c : Cfg} (h : t.Keeps s) : (t.takeConfig c).Keeps s :=
  h.same (by unfold State.takeConfig State.watched; dsimp only; split <;> rfl)

theorem Ev.Keeps.slotFault {k : SlotKind} {x : Subject} (h : e.Keeps s) : (e.slotFault k x).Keeps s := h.log

/-- A ring of at most 64 events taken back, with its counts, keeps what is watched (R178). -/
theorem Ev.Keeps.stand {xs : List Event} {n c : Nat} (h : e.Keeps s) (hx : xs.length ≤ 64) :
    (e.map fun s => { s with evr := s.evr.stand xs n, rsc := { s.rsc with accepting := true },
                             tlr := { s.tlr with counter := c } }).Keeps s :=
  h.change fun h => { h with events := fun _ => hx }

theorem Ev.Keeps.loadEvents (h : e.Keeps s) : e.loadEvents.Keeps s := by
  unfold Ev.loadEvents
  refine .enterHeld ?_
  have faulted {e' : Ev} {b : Bool} {k : SlotKind} (h : e'.Keeps s) : (if b then e'.slotFault k (.slot 0) else e').Keeps s :=
    h.slotFault.ite h
  exact faulted (faulted (h.stand (e.store.judge_ring_length _)))

/-! ### Taking the mirror back (R176) -/

theorem Ev.Keeps.loadBalance (h : e.Keeps s) : e.loadBalance.Keeps s := by
  unfold Ev.loadBalance
  split
  · exact h.map rfl
  · exact h.modBalance.slotFault
  · exact h
  · exact h

theorem Ev.Keeps.loadPit {i : PitIx} (h : e.Keeps s) : (e.loadPit i).Keeps s := by
  unfold Ev.loadPit
  dsimp only
  split
  · exact .touchIf (.ite (h.map rfl).log (h.map rfl))
  · exact (h.map rfl).slotFault.openBalance.enqueue
  · exact h
  · exact h

theorem Ev.Keeps.loadBin {i : BinIx} (h : e.Keeps s) : (e.loadBin i).Keeps s := by
  unfold Ev.loadBin
  dsimp only
  split
  · exact .touchIf (.ite (h.map rfl).log (h.map rfl))
  · exact (h.map rfl).log.slotFault.openBalance.enqueue
  · exact h
  · exact h

theorem Ev.Keeps.loadTicket {n : Nat} (h : e.Keeps s) : (e.loadTicket n).Keeps s := by
  unfold Ev.loadTicket
  split
  · exact h.ite (h.map rfl)
  · exact h.slotFault.enqueue
  · exact h
  · exact h

theorem Ev.Keeps.loadLot {n : Nat} (h : e.Keeps s) : (e.loadLot n).Keeps s := by
  unfold Ev.loadLot
  split
  · exact h.ite (h.map rfl)
  · exact h.slotFault.enqueue
  · exact h
  · exact h

theorem Ev.Keeps.loadDru (h : e.Keeps s) : e.loadDru.Keeps s := by
  unfold Ev.loadDru
  split
  · exact h.modDru
  · exact h.modDru.slotFault.openBalance.enqueue
  · exact h
  · exact h

theorem Ev.Keeps.loadBtu (h : e.Keeps s) : e.loadBtu.Keeps s := by
  unfold Ev.loadBtu
  split
  · exact h.modBtu.touchIf
  · exact h.modBtu.slotFault.openBalance.enqueue
  · exact h
  · exact h

theorem Ev.Keeps.loadCondition {i : BinIx} (h : e.Keeps s) : (e.loadCondition i).Keeps s := by
  unfold Ev.loadCondition
  split
  · exact h.map rfl
  · exact (h.map rfl).slotFault.enqueue
  · exact h
  · exact h

theorem Ev.Keeps.loadSurvey (h : e.Keeps s) : e.loadSurvey.Keeps s := by
  unfold Ev.loadSurvey
  split
  · next hr =>
    obtain ⟨bs, hbs⟩ := Store.judge_record hr
    exact h.change fun h => { h with log := fun _ => Parse.survey_length hbs }
  · exact .enqueue (.slotFault (h.change fun h => { h with log := fun _ => Nat.zero_le _ }))
  · exact h
  · exact h

theorem Ev.Keeps.loadRunning (h : e.Keeps s) : e.loadRunning.Keeps s := by
  unfold Ev.loadRunning
  split
  · exact h.map rfl
  · exact (h.map rfl).slotFault.enqueue
  · exact h
  · exact h

theorem Ev.Keeps.loadMirror (h : e.Keeps s) : e.loadMirror.Keeps s := by
  have places {e : Ev} (h : e.Keeps s) :
      ((List.finRange 28).foldl Ev.loadBin ((List.finRange 2).foldl Ev.loadPit e)).Keeps s :=
    .foldl (h.foldl fun _ _ h => h.loadPit) fun _ _ h => h.loadBin
  have register {e : Ev} (h : e.Keeps s) :
      ((List.range 400).foldl Ev.loadLot ((List.range 12).foldl Ev.loadTicket e)).Keeps s :=
    .foldl (h.foldl fun _ _ h => h.loadTicket) fun _ _ h => h.loadLot
  have conditions {e : Ev} (h : e.Keeps s) : ((List.finRange 28).foldl Ev.loadCondition e).Keeps s :=
    h.foldl fun _ _ h => h.loadCondition
  exact (conditions (register (places h.loadEvents.loadBalance)).loadDru.loadBtu).loadSurvey.loadRunning

/-! ### Step 4 of start-up -/

theorem Ev.Keeps.dropTicket {x : Ticket} (h : e.Keeps s) : (e.dropTicket x).Keeps s := h.removeTicket.log.openBalance

theorem Ev.Keeps.doubtPit {i : PitIx} {b : Bool} (h : e.Keeps s) : (e.doubtPit i b).Keeps s :=
  (h.map rfl).touch.log.openBalance

theorem Ev.Keeps.reconcileTicket {n : Nat} (h : e.Keeps s) : (e.reconcileTicket n).Keeps s := by
  unfold Ev.reconcileTicket
  split
  · exact h
  · dsimp only
    split
    · exact h.dropTicket.ite h
    · exact h.dropTicket.ite h
    · exact h.dropTicket.ite h
    · exact h.dropTicket.ite h
    · exact .ite (h.dropTicket.doubtPit.ite h.dropTicket)
        (h.ite (.ite (h.map rfl).touch (h.changeTicket.ite h.dropTicket.doubtPit)))

theorem Ev.Keeps.reconcilePit {i : PitIx} (h : e.Keeps s) : (e.reconcilePit i).Keeps s := by
  unfold Ev.reconcilePit
  split
  · exact h.ite h.doubtPit
  · exact h
  · exact h

theorem Ev.Keeps.reconcile (h : e.Keeps s) : e.reconcile.Keeps s :=
  (h.foldl fun _ _ h => h.reconcileTicket).foldl fun _ _ h => h.reconcilePit

theorem Ev.Keeps.logInterrupted (h : e.Keeps s) : e.logInterrupted.Keeps s :=
  h.ite (.enqueue (.map (h.foldl fun _ _ h => h.log) rfl))

theorem Ev.Keeps.closeLoadedFeed (h : e.Keeps s) : e.closeLoadedFeed.Keeps s := h.ite h.modDru.touch

theorem Ev.Keeps.settleCondition {i : BinIx} (h : e.Keeps s) : (e.settleCondition i).Keeps s := by
  have taken {c : Prop} [Decidable c] {x : BinCondition} :
      (if c then e else (e.map (·.modCond i fun _ => x)).enqueue ⟨.condition, i⟩).Keeps s := h.ite (h.map rfl).enqueue
  exact taken.ite (taken.map rfl).touch

theorem Ev.Keeps.interruptSurvey (h : e.Keeps s) : e.interruptSurvey.Keeps s := by
  unfold Ev.interruptSurvey
  split
  · exact h
  · exact (h.pushEntry rfl).enqueue.log.offer

theorem Ev.Keeps.recomputeCeiling (h : e.Keeps s) : e.recomputeCeiling.Keeps s :=
  .ite h.modBtu.touchIf.actOnPlan h

theorem State.Keeps.modLot {n : Nat} {f : Lot → Lot} (h : t.Keeps s) : (t.modLot n f).Keeps s := h.same rfl

theorem Ev.Keeps.recountLot {n : Nat} (h : e.Keeps s) : (e.recountLot n).Keeps s := by
  unfold Ev.recountLot
  split
  · exact h
  · exact h.ite (h.change fun h => h.modLot.revise)

theorem Ev.Keeps.strikeLot {n : Nat} (h : e.Keeps s) : (e.strikeLot n).Keeps s := by
  have places : (((List.finRange 28).foldl (fun e i =>
      if names n (e.st.bin i).layers then
        (e.map (·.modBin i fun b => { b with layers := b.layers.map (Layer.strike n) })).touch (.bin i)
      else e) ((List.finRange 2).foldl (fun e i =>
      if names n (e.st.pit i).layers then
        (e.map (·.modPit i fun b => { b with layer := b.layer.map (Layer.strike n) })).touch (.pit i)
      else e) e))).Keeps s :=
    .foldl (h.foldl fun _ _ h => .ite (h.map rfl).touch h) fun _ _ h => .ite (h.map rfl).touch h
  unfold Ev.strikeLot
  dsimp only
  generalize (List.finRange 28).foldl _ _ = f at places ⊢
  have batches : (if f.st.dru.batches.any fun b => b.lots.contains n then
      (f.modDru fun d => { d with batches := d.batches.map (Batch.strike n) }).touch .batchList else f).Keeps s :=
    places.modDru.touch.ite places
  exact (batches.modBtu.touch.ite batches).log

theorem Ev.Keeps.rebuildLot {n : Nat} (h : e.Keeps s) : (e.rebuildLot n).Keeps s := h.enterLot.ite h.strikeLot

theorem Ev.Keeps.recountAll (h : e.Keeps s) : e.recountAll.Keeps s :=
  ((h.foldl fun _ _ h => h.retireLot).foldl fun _ _ h => h.recountLot).foldl fun _ _ h => h.rebuildLot

theorem Ev.Keeps.recoverCounter {b : Bool} (h : e.Keeps s) : (e.recoverCounter b).Keeps s := .ite (h.map rfl).enqueue h

theorem Ev.Keeps.testBalance (h : e.Keeps s) : e.testBalance.Keeps s := h.openBalance.log.ite h

theorem Ev.Keeps.reconcileAll (h : e.Keeps s) : e.reconcileAll.Keeps s := by
  have settled : ((List.finRange 28).foldl Ev.settleCondition e.reconcile.logInterrupted.closeLoadedFeed).Keeps s :=
    h.reconcile.logInterrupted.closeLoadedFeed.foldl fun _ _ h => h.settleCondition
  unfold Ev.reconcileAll
  dsimp only
  generalize (List.finRange 28).foldl Ev.settleCondition _ = f at settled ⊢
  exact settled.interruptSurvey.recomputeCeiling.recountAll.recoverCounter.testBalance

/-! ### The Retained Store Controller -/

/-- A change of the Retained Store Controller that keeps the store canonical keeps what is watched (R172). -/
theorem State.Keeps.modRsc {x : Rsc} (h : t.Keeps s) (hx : t.rsc.store.wf = true → x.store.wf = true) :
    State.Keeps { t with rsc := x } s := { h with store := fun hs => hx (h.store hs) }

theorem Ev.Keeps.modRsc {f : Rsc → Rsc} (h : e.Keeps s)
    (hf : e.st.rsc.store.wf = true → (f e.st.rsc).store.wf = true) : (e.modRsc f).Keeps s := State.Keeps.modRsc h hf

@[simp] theorem Rsc.startJob_store (r : Rsc) (now : Nat) : (r.startJob now).store = r.store := by
  unfold Rsc.startJob
  repeat' split
  all_goals rfl

theorem Ev.Keeps.startJob {now : Nat} (h : e.Keeps s) : (e.modRsc (·.startJob now)).Keeps s :=
  h.modRsc fun hs => by rwa [Rsc.startJob_store]

theorem Ev.Keeps.jobDone {j : ConfigJob} (h : e.Keeps s) : (e.jobDone j).Keeps s := by
  unfold Ev.jobDone
  dsimp only
  split
  · exact (h.modRsc id).reply
  · exact h.modRsc id

theorem Ev.Keeps.jobAbandoned {j : ConfigJob} (h : e.Keeps s) : (e.jobAbandoned j).Keeps s := by
  unfold Ev.jobAbandoned
  dsimp only
  split
  · exact (h.modRsc id).reply
  · exact h.modRsc id

theorem Ev.Keeps.configWritten (h : e.Keeps s) : e.configWritten.Keeps s := by
  unfold Ev.configWritten
  split
  · exact h.jobDone.ite h
  · exact h

theorem Ev.Keeps.writeDone {w : StoreWrite} (h : e.Keeps s) : (e.writeDone w).Keeps s := by
  have written := h.modRsc (f := fun r => { r with store := r.store.write w.addr w.bytes, write := none })
    (Store.write_wf _ _)
  unfold Ev.writeDone
  dsimp only
  split
  · exact (written.modRsc id).startJob
  · exact written.configWritten.startJob

theorem Ev.Keeps.mirrorAbandoned {w : StoreWrite} {id : SlotId} {left : List Byte} (h : e.Keeps s) :
    (e.mirrorAbandoned w id left).Keeps s := by
  have torn := h.modRsc (f := fun r => { r with store := r.store.torn w left, write := none }) (Store.torn_wf _ _)
  have queued := torn.enqueue (id := id) |>.modRsc (f := fun r => { r with faultLogged := true }) fun hs => hs
  exact .startJob (torn.ite (queued.ite queued.log))

theorem Ev.Keeps.configAbandoned {w : StoreWrite} {left : List Byte} (h : e.Keeps s) :
    (e.configAbandoned w left).Keeps s := by
  have torn := h.modRsc (f := fun r => { r with store := r.store.torn w left, write := none }) (Store.torn_wf _ _)
  unfold Ev.configAbandoned
  dsimp only
  split
  · exact torn.jobAbandoned.startJob
  · exact torn.startJob

theorem State.Keeps.startMirrorWrite (h : t.Keeps s) : t.startMirrorWrite.Keeps s := by
  unfold State.startMirrorWrite
  split
  · exact h.modRsc id
  · exact h

theorem Ev.Keeps.readConfig {p : Port} {body : List Byte} (h : e.Keeps s) : (Ev.readConfig p body e).Keeps s := by
  unfold Ev.readConfig
  split
  · split
    · exact h.reply
    · exact h.reply.ite h.reply
  · exact h.reply

theorem Ev.Keeps.writeConfig {p : Port} {a : Fin 9} {x : Staging} (h : e.Keeps s) : (e.writeConfig p a x).Keeps s :=
  h.modRsc fun hs => by rwa [Rsc.startJob_store]

theorem Ev.Keeps.takeChunk {p : Port} {body : List Byte} (h : e.Keeps s) : (Ev.takeChunk p body e).Keeps s := by
  unfold Ev.takeChunk
  split
  · exact h.reply
  · split
    · exact h.reply
    · exact (h.modRsc id).reply
    · exact h.writeConfig

/-! ### Start-up, power and RESTART -/

/-- Start-up over a canonical store keeps what is watched: every queue, window, ring and log begins empty (R175). -/
theorem State.Keeps.startUp {m : Store} (h : t.Keeps s) (hm : t.rsc.store.wf = true → m.wf = true) :
    (State.startUp m t.pending).Keeps s where
  pending := h.pending
  notices p _ := by cases p <;> exact Nat.zero_le _
  window _ := Nat.zero_le _
  ring _ := Nat.zero_le _
  log _ := Nat.zero_le _
  events _ := Nat.zero_le _
  store hs := hm (h.store hs)

theorem State.Keeps.stopped {left : List Byte} {x : Phase} (h : t.Keeps s) : (t.stopped left x).Keeps s := by
  have cut (hs : t.rsc.store.wf = true) : (t.rsc.cutOff left).wf = true := by
    unfold Rsc.cutOff
    split
    · exact Store.torn_wf _ _ hs
    · exact hs
  exact (h.startUp cut).same rfl

theorem State.Keeps.finishRestart (h : t.Keeps s) : t.finishRestart.Keeps s := (h.startUp id).ite h

theorem State.Keeps.beginRestart (h : t.Keeps s) : t.beginRestart.Keeps s :=
  .finishRestart (.event (h.same rfl) fun _ h => h.dropClaims)

theorem Ev.Keeps.restart {p : Port} {body : List Byte} (h : e.Keeps s) : (Ev.restart p body e).Keeps s :=
  h.reply.ite h.reply

theorem State.Keeps.phase {x : Phase} (h : t.Keeps s) : State.Keeps { t with phase := x } s := h.same rfl

theorem State.Keeps.becomeReady (h : t.Keeps s) : t.becomeReady.Keeps s := h.same rfl

theorem State.Keeps.advanceTo {n : Nat} (h : t.Keeps s) : (t.advanceTo n).Keeps s := h.same rfl

/-! ### Links -/

theorem State.Keeps.hear {p : Port} (h : t.Keeps s) : (t.hear p).Keeps s := h.modPort fun _ => id

theorem State.Keeps.collide {p : Port} (h : t.Keeps s) : (t.collide p).Keeps s := h.modPort fun _ => id

theorem State.Keeps.hold {p : Port} {seq kind : Byte} (h : t.Keeps s) : (t.hold p seq kind).Keeps s := h.modPort fun _ => id

theorem State.Keeps.arrive {k : ReqKind} {p : Port} {seq : Byte} (h : t.Keeps s) : (t.arrive k p seq).1.Keeps s := by
  unfold State.arrive
  split
  · exact h
  · dsimp only
    split
    · split
      · exact h.hear.hold.reply
      · split
        · exact h.hear.hold.reply
        · exact h.hear.hold
    · exact h.hear.collide

/-- A request keeps what is watched when its owner's event does. -/
theorem State.Keeps.request {k : ReqKind} {p : Port} {seq : Byte} {act : Ev → Ev}
    (hact : ∀ e : Ev, e.Keeps s → (act e).Keeps s) : (s.request k p seq act).Keeps s := by
  have arrived := (State.Keeps.refl s).arrive (k := k) (p := p) (seq := seq)
  exact .ite (arrived.event hact) arrived

@[simp] theorem SlpPort.receive_notices (x : SlpPort) (cs : List RxChar) : (x.receive cs).notices = x.notices := rfl

theorem SlpPort.frameTimeout_notices (x : SlpPort) : x.frameTimeout.notices = x.notices := by
  unfold SlpPort.frameTimeout; split <;> rfl

theorem SlpPort.transmit_notices (x : SlpPort) : x.transmit.notices = x.notices := by
  unfold SlpPort.transmit
  repeat' split
  all_goals rfl

theorem SlpPort.lineIdle_notices (x : SlpPort) : x.lineIdle.notices = x.notices := by
  unfold SlpPort.lineIdle; split <;> rfl

theorem SlpPort.expireWatch_notices (x : SlpPort) : x.expireWatch.notices = x.notices := by
  unfold SlpPort.expireWatch; split <;> rfl

theorem SlpPort.cancel_notices (seq : Byte) (x : SlpPort) : (x.cancel seq).notices = x.notices := by
  unfold SlpPort.cancel; split <;> rfl

/-- A change of a port that leaves its notice queue alone keeps what is watched. -/
theorem State.Keeps.modPort_of_eq {p : Port} {f : SlpPort → SlpPort} (h : t.Keeps s)
    (hf : ∀ x : SlpPort, (f x).notices = x.notices) : (t.modPort p f).Keeps s :=
  h.modPort fun x hx => by rwa [hf]

theorem Ev.Keeps.fallSilent {p : Port} (h : e.Keeps s) : (e.fallSilent p).Keeps s := by
  have silent := h.change (f := (·.modPort p fun q => { q with silent := true, timer := none })) fun h =>
    h.modPort fun _ => id
  have tripped := silent.silenceClaims (p := p) |>.change
    (f := (·.modPort p fun q => { q with flags := { q.flags with silentTripped := true } })) fun h => h.modPort fun _ => id
  exact tripped.offer.log

theorem Ev.Keeps.watch {p : Port} {seq : Byte} {body : List Byte} (h : e.Keeps s) : (Ev.watch p seq body e).Keeps s := by
  unfold Ev.watch
  split
  · split
    · exact h.reply
    · split
      · exact h.reply
      · exact h.reply.ite (h.change fun h => h.modPort fun _ => id)
  · exact h.reply

theorem Ev.Keeps.cancelNone {p : Port} {body : List Byte} (h : e.Keeps s) : (Ev.cancelNone p body e).Keeps s :=
  h.reply.ite h.reply

theorem Ev.Keeps.readList {p : Port} {rev : Nat} {header : Nat → Nat → List Byte} {entries : List (List Byte)}
    {extra : List Byte} (h : e.Keeps s) : (e.readList p rev header entries extra).Keeps s := by
  unfold Ev.readList
  split
  · exact h.reply.ite h.reply
  · exact h.reply

theorem Ev.Keeps.readBerth {p : Port} {extra : List Byte} (h : e.Keeps s) : (e.readBerth p extra).Keeps s := by
  unfold Ev.readBerth
  split
  · exact h.reply.ite h.reply
  · exact h.reply

theorem Ev.Keeps.readWhole {p : Port} {extra : List Byte} {x : Option (List Byte)} (h : e.Keeps s) :
    (e.readWhole p extra x).Keeps s := by
  refine h.reply.ite ?_
  split
  · exact h.reply
  · exact h.reply

theorem Ev.Keeps.readRecord {p : Port} {body : List Byte} (h : e.Keeps s) : (Ev.readRecord p body e).Keeps s := by
  unfold Ev.readRecord
  split
  · split
    · exact h.reply
    · exact h.readList
    · exact h.readList
    · exact h.readList
    · exact h.readBerth
    · exact h.readWhole
  · exact h.reply

theorem Ev.Keeps.status {p : Port} {body : List Byte} (h : e.Keeps s) : (Ev.status p body e).Keeps s :=
  h.reply.ite h.reply

theorem Ev.Keeps.readEvents {p : Port} {body : List Byte} (h : e.Keeps s) : (Ev.readEvents p body e).Keeps s := by
  unfold Ev.readEvents
  split
  · exact h.reply
  · exact h.reply

theorem Ev.Keeps.setClock {p : Port} {body : List Byte} (h : e.Keeps s) : (Ev.setClock p body e).Keeps s := by
  unfold Ev.setClock
  split
  · exact h.reply.ite (h.map rfl).reply
  · exact h.reply

end

/-! ### Commands -/

/-- An outcome is a next state that keeps what is watched of `s`. -/
def State.KeptBy (s : State) (r : Result) : Prop := ∃ t, r = .next t ∧ t.Keeps s

section
variable {s t : State}

theorem State.Keeps.next (h : t.Keeps s) : s.KeptBy (.next t) := ⟨t, rfl, h⟩

theorem State.KeptBy.unchanged : s.KeptBy (.next s) := (State.Keeps.refl s).next

theorem execRequest_kept {k : ReqKind} {p : Port} {seq : Byte} {act : Ev → Ev}
    (hact : ∀ e : Ev, e.Keeps s → (act e).Keeps s) : s.KeptBy (.next (s.request k p seq act)) :=
  (State.Keeps.request hact).next

theorem execPowerOn_kept : s.KeptBy (execPowerOn s) := by
  unfold execPowerOn
  split
  · exact ((State.Keeps.refl s).startUp id).next
  · exact .unchanged

theorem execResetNReleased_kept : s.KeptBy (execResetNReleased s) := by
  unfold execResetNReleased
  split
  · exact ((State.Keeps.refl s).startUp id).next
  · exact .unchanged

theorem execPowerLoss_kept (left : List Byte) : s.KeptBy (execPowerLoss left s) := by
  unfold execPowerLoss
  split
  · exact .unchanged
  · exact (State.Keeps.refl s).stopped.next

theorem execResetNAsserted_kept (left : List Byte) : s.KeptBy (execResetNAsserted left s) := by
  unfold execResetNAsserted
  split
  · exact .unchanged
  · exact (State.Keeps.refl s).stopped.next

theorem execConfigurationLoaded_kept : s.KeptBy (execConfigurationLoaded s) := by
  have loaded : (s.takeConfig s.rsc.store.config).Keeps s := (State.Keeps.refl s).takeConfig
  unfold execConfigurationLoaded
  split
  · dsimp only
    split
    · exact loaded.phase.next
    · exact ((loaded.modEvr (x := Evr.stand _ [] 0) fun _ => Nat.zero_le _).phase.event fun _ h => h.enterHeld).next
  · exact .unchanged

theorem execMirrorLoaded_kept : s.KeptBy (execMirrorLoaded s) := by
  unfold execMirrorLoaded
  split
  · exact (State.Keeps.event (.refl s) fun _ h => h.loadMirror.reconcileAll).becomeReady.next
  · exact .unchanged

theorem execUndefinedKindRequest_kept (p : Port) (seq kind : Byte) : s.KeptBy (execUndefinedKindRequest p seq kind s) := by
  have heard : (s.hear p).Keeps s := (State.Keeps.refl s).hear
  unfold execUndefinedKindRequest
  split
  · exact .unchanged
  · dsimp only
    split
    · exact heard.hold.reply.next
    · exact heard.collide.next

theorem execPortReset_kept (p : Port) : s.KeptBy (execPortReset p s) := by
  have reset : (s.modPort p fun _ => SlpPort.reset s.ms).Keeps s :=
    (State.Keeps.refl s).modPort fun _ _ => Nat.zero_le _
  have window : ∀ w : Wbu, (w.abandon p).window = w.window := fun w => by
    unfold Wbu.abandon
    repeat' split
    all_goals rfl
  refine State.Keeps.next (.ite (reset.same ?_) (.refl s))
  simp only [State.watched, window]

theorem execAnswerSent_kept (p : Port) : s.KeptBy (execAnswerSent p s) := by
  have sent : (s.modPort p fun q => { q with tx := none, slot := q.slot.sent }).Keeps s :=
    (State.Keeps.refl s).modPort fun _ => id
  unfold execAnswerSent
  split
  · exact (sent.beginRestart.ite sent).next
  · exact .unchanged

theorem execNoticeSent_kept (p : Port) : s.KeptBy (execNoticeSent p s) :=
  State.Keeps.next (.ite ((State.Keeps.refl s).modPort fun x hx => by simpa using Nat.le_succ_of_le hx) (.refl s))

theorem execSilenceTimeout_kept (p : Port) : s.KeptBy (execSilenceTimeout p s) := by
  unfold execSilenceTimeout
  split
  · exact ((State.Keeps.refl s).advanceTo.event fun _ h => h.fallSilent).next
  · exact .unchanged

theorem execWatchExpired_kept (p : Port) : s.KeptBy (execWatchExpired p s) := by
  unfold execWatchExpired
  split
  · exact ((State.Keeps.refl s).advanceTo.modPort_of_eq SlpPort.expireWatch_notices).next
  · exact .unchanged

theorem execCancelWatch_kept (p : Port) (seq : Byte) (body : List Byte) : s.KeptBy (execCancelWatch p seq body s) := by
  unfold execCancelWatch
  split
  · exact ((State.Keeps.refl s).hear.modPort_of_eq (SlpPort.cancel_notices seq)).next
  · exact execRequest_kept fun _ h => h.cancelNone

theorem execDrainExpiry_kept (n : Nat) : s.KeptBy (execDrainExpiry n s) := by
  unfold execDrainExpiry
  split
  · split
    · exact ((State.Keeps.refl s).advanceTo.event fun _ h => h.closeTransfer).next
    · exact .unchanged
  · exact .unchanged

theorem execStageStale_kept : s.KeptBy (execStageStale s) := by
  unfold execStageStale
  split
  · exact ((State.Keeps.refl s).advanceTo.event fun _ h => h.goStale).next
  · exact .unchanged

theorem execConfigWriteTimeout_kept (left : List Byte) : s.KeptBy (execConfigWriteTimeout left s) := by
  unfold execConfigWriteTimeout
  split
  · split
    · exact ((State.Keeps.refl s).advanceTo.event fun _ h => h.configAbandoned).finishRestart.next
    · exact .unchanged
  · exact .unchanged

theorem execMirrorWriteTimeout_kept (left : List Byte) : s.KeptBy (execMirrorWriteTimeout left s) := by
  unfold execMirrorWriteTimeout
  split
  · split
    · exact ((State.Keeps.refl s).advanceTo.event fun _ h => h.mirrorAbandoned).finishRestart.next
    · exact .unchanged
  · exact .unchanged

theorem execStoreStatusPoll_kept (status : Byte) : s.KeptBy (execStoreStatusPoll status s) := by
  unfold execStoreStatusPoll
  split
  · split
    · exact (State.Keeps.event (.refl s) fun _ h => h.writeDone).finishRestart.next
    · exact .unchanged
  · exact .unchanged

theorem execSampleArrival_kept (word : SampleWord) : s.KeptBy (execSampleArrival word s) := by
  have aligned : State.Keeps { s with wbu := { s.wbu with wsi := .aligning } } s := (State.Keeps.refl s).same rfl
  unfold execSampleArrival
  split
  · dsimp only
    split
    · exact (aligned.event fun _ h => h.takeSample).next
    · exact aligned.next
  · exact .unchanged

theorem execStalenessTimerExpiry_kept : s.KeptBy (execStalenessTimerExpiry s) := by
  unfold execStalenessTimerExpiry
  split
  · exact ((State.Keeps.refl s).advanceTo.event fun _ h => h.bridgeStale).next
  · exact .unchanged

theorem execCaptureDeadline_kept : s.KeptBy (execCaptureDeadline s) := by
  unfold execCaptureDeadline
  split
  · exact ((State.Keeps.refl s).advanceTo.event fun _ h => h.endCapture).next
  · exact .unchanged

/-- A change of the Condition Monitor that leaves the survey log alone keeps what is watched. -/
theorem State.Keeps.modCdm {x : Cdm} (h : t.Keeps s) (hx : x.log = t.cdm.log) : State.Keeps { t with cdm := x } s :=
  { h with log := fun hs => Nat.le_trans (Nat.le_of_eq (congrArg List.length hx)) (h.log hs) }

theorem execPollCycleExpiry_kept : s.KeptBy (execPollCycleExpiry s) := by
  unfold execPollCycleExpiry
  split
  · refine ((State.Keeps.refl s).advanceTo.modCdm ?_).next
    unfold Cdm.pollExpiry
    dsimp only
    split <;> rfl
  · exact .unchanged

theorem execBusTransactionStart_kept : s.KeptBy (execBusTransactionStart s) := by
  refine State.Keeps.next (.ite ((State.Keeps.refl s).modCdm ?_) (.refl s))
  unfold Cdm.startTx
  split <;> rfl

theorem execConvertComplete_kept (sent : Bool) : s.KeptBy (execConvertComplete sent s) := by
  unfold execConvertComplete
  split
  · exact (State.Keeps.event (.refl s) fun _ h => h.freeBus.convertEnd).next
  · exact .unchanged

theorem execPollConversionWait_kept : s.KeptBy (execPollConversionWait s) := by
  unfold execPollConversionWait
  split
  · exact ((State.Keeps.refl s).advanceTo.event fun _ h => h.nextRead).next
  · exact .unchanged

theorem execReadPointsEnd_kept (reply : Option (List Byte)) : s.KeptBy (execReadPointsEnd reply s) := by
  unfold execReadPointsEnd
  split
  · exact (State.Keeps.event (.refl s) fun _ h => h.readEnd).next
  · exact .unchanged

theorem execSelfCheckEnd_kept (b : Bool) : s.KeptBy (execSelfCheckEnd b s) := by
  unfold execSelfCheckEnd
  split
  · exact (State.Keeps.event (.refl s) fun _ h => h.selfCheckEnd).next
  · exact .unchanged

theorem execSurveyConversionWait_kept : s.KeptBy (execSurveyConversionWait s) := by
  unfold execSurveyConversionWait
  split
  · split
    · exact State.Keeps.next (.modCdm (State.Keeps.refl s).advanceTo rfl)
    · exact .unchanged
  · exact .unchanged

theorem execClockHoldTimeout_kept : s.KeptBy (execClockHoldTimeout s) := by
  unfold execClockHoldTimeout
  split
  · exact (State.Keeps.event (.refl s) fun _ h => h.freeBus.convertEnd).next
  · exact (State.Keeps.event (.refl s) fun _ h => h.readEnd).next
  · exact (State.Keeps.event (.refl s) fun _ h => h.selfCheckEnd).next
  · exact .unchanged

/-- Every command completes and keeps the queue of commands, the stated sizes and the canonical store. -/
theorem exec_kept (c : Instr) (s : State) : s.KeptBy (exec c s) := by
  have refl := State.Keeps.refl s
  cases c with
  | powerOn => exact execPowerOn_kept
  | resetNAsserted left => exact execResetNAsserted_kept left
  | resetNReleased => exact execResetNReleased_kept
  | configurationLoaded => exact execConfigurationLoaded_kept
  | mirrorLoaded => exact execMirrorLoaded_kept
  | frameError p chars => exact State.Keeps.next (.ite (refl.modPort fun _ => id) refl)
  | interCharacterTimeout p chars => exact State.Keeps.next (.ite (refl.modPort_of_eq fun _ => SlpPort.frameTimeout_notices _) refl)
  | collided p kind => exact (refl.hear.collide.ite refl).next
  | undefinedKindRequest p seq kind => exact execUndefinedKindRequest_kept p seq kind
  | portReset p => exact execPortReset_kept p
  | transmissionStart p => exact ((refl.modPort_of_eq SlpPort.transmit_notices).ite refl).next
  | answerSent p => exact execAnswerSent_kept p
  | noticeSent p => exact execNoticeSent_kept p
  | silenceTimeout p => exact execSilenceTimeout_kept p
  | watchExpired p => exact execWatchExpired_kept p
  | status => exact execRequest_kept fun _ h => h.status
  | readRecord => exact execRequest_kept fun _ h => h.readRecord
  | watch => exact execRequest_kept fun _ h => h.watch
  | cancelWatch p seq body => exact execCancelWatch_kept p seq body
  | readEvents => exact execRequest_kept fun _ h => h.readEvents
  | openTicket => exact execRequest_kept fun _ h => h.openTicket
  | captureGross => exact execRequest_kept fun _ h => h.captureGross
  | enterSample => exact execRequest_kept fun _ h => h.enterSample
  | assignPit => exact execRequest_kept fun _ h => h.assignPit
  | reportDumped => exact execRequest_kept fun _ h => h.reportDumped
  | captureTare => exact execRequest_kept fun _ h => h.captureTare
  | voidTicket => exact execRequest_kept fun _ h => h.voidTicket
  | zeroBridge => exact execRequest_kept fun _ h => h.zeroBridge
  | placeHold => exact execRequest_kept fun _ h => h.placeHold
  | releaseHold => exact execRequest_kept fun _ h => h.releaseHold
  | setCeiling => exact execRequest_kept fun _ h => h.setCeiling
  | lockCeiling => exact execRequest_kept fun _ h => h.lockTo
  | unlockCeiling => exact execRequest_kept fun _ h => h.lockTo
  | freezeCeilings => exact execRequest_kept fun _ h => h.freezeCeilings
  | adjustMass => exact execRequest_kept fun _ h => h.adjustMass
  | acceptBalance => exact execRequest_kept fun _ h => h.acceptBalance
  | claimRoute => exact execRequest_kept fun _ h => h.claimRoute
  | startTransfer => exact execRequest_kept fun _ h => h.startTransfer
  | reportMass => exact execRequest_kept fun _ h => h.reportMass
  | drainExpiry claim => exact execDrainExpiry_kept claim
  | releaseClaim => exact execRequest_kept fun _ h => h.releaseClaim
  | reportSegmentMotion => exact execRequest_kept fun _ h => h.reportMotion
  | clearSegmentFault => exact execRequest_kept fun _ h => h.clearFault
  | closeFeed => exact execRequest_kept fun _ h => h.closeFeed
  | reportBatchOut => exact execRequest_kept fun _ h => h.reportBatchOut
  | startSurvey => exact execRequest_kept fun _ h => h.startSurvey
  | abortSurvey => exact execRequest_kept fun _ h => h.abortSurvey
  | berthBarge => exact execRequest_kept fun _ h => h.berthBarge
  | amendPlan => exact execRequest_kept fun _ h => h.amendPlan
  | reportStage => exact execRequest_kept fun _ h => h.reportStage
  | closeBarge => exact execRequest_kept fun _ h => h.closeBarge
  | stageStale => exact execStageStale_kept
  | setClock => exact execRequest_kept fun _ h => h.setClock
  | restart => exact execRequest_kept fun _ h => h.restart
  | writeConfigurationArea => exact execRequest_kept fun _ h => h.takeChunk
  | readConfigurationArea => exact execRequest_kept fun _ h => h.readConfig
  | configWriteTimeout left => exact execConfigWriteTimeout_kept left
  | mirrorWriteStart => exact (refl.startMirrorWrite.ite refl).next
  | storeStatusPoll status => exact execStoreStatusPoll_kept status
  | mirrorWriteTimeout left => exact execMirrorWriteTimeout_kept left
  | wsiIdle => exact State.Keeps.next (.ite (refl.same rfl) refl)
  | sampleArrival word => exact execSampleArrival_kept word
  | stalenessTimerExpiry => exact execStalenessTimerExpiry_kept
  | captureDeadline => exact execCaptureDeadline_kept
  | pollCycleExpiry => exact execPollCycleExpiry_kept
  | busTransactionStart => exact execBusTransactionStart_kept
  | convertComplete sent => exact execConvertComplete_kept sent
  | pollConversionWait => exact execPollConversionWait_kept
  | readPointsEnd reply => exact execReadPointsEnd_kept reply
  | selfCheckEnd b => exact execSelfCheckEnd_kept b
  | surveyConversionWait => exact execSurveyConversionWait_kept
  | clockHoldTimeout => exact execClockHoldTimeout_kept
  | powerLoss left => exact execPowerLoss_kept left
  | lineReturnsToIdle p => exact ((refl.modPort_of_eq SlpPort.lineIdle_notices).ite refl).next
end

/-- Settles O4: an idle step changes the clock alone, and every command keeps the stated sizes (`exec_kept`). -/
theorem everyStepKeepsTheStatedSizes : Obligations.EveryStepKeepsTheStatedSizes := by
  intro s t hs h
  rcases step_cases h with ⟨_, rfl⟩ | ⟨c, rest, _, hc⟩
  · rw [State.idle_eq]; exact hs
  · obtain ⟨u, hu, kept⟩ := exec_kept c { s with pending := rest }
    rw [hc] at hu
    cases hu
    exact kept.bounded hs

end Sys2Proof.Machine
end

section
/-! PROOF. The Station Link Ports: start-up, fields, the receiver, arrivals at a slot, port resets, transmissions and
watches (chapter 1). -/
namespace Sys2Proof.Machine

/-! ### Start-up (R18) -/

/-- Settles O8: each start-up is `State.startUp`, whose ports all begin as R18 says. -/
theorem startUpBeginsEveryLinkAfresh : Obligations.StartUpBeginsEveryLinkAfresh := by
  refine ⟨fun s h => ?_, fun s h => ?_, fun s h1 h2 h3 h4 => ?_, fun m cs p => ?_, fun m cs => ⟨rfl, rfl, rfl, rfl, rfl⟩⟩
  · exact if_pos h
  · exact if_pos h
  · exact if_pos ⟨h1, h2, h3, h4⟩
  · cases p <;> rfl

/-! ### Fields (R3) -/

/-- A body reads as fields when it is fields at the front with nothing after them. -/
theorem fields_eq_some_iff (ws : List Nat) (body : List Byte) (xs : List Nat) :
    fields ws body = some xs ↔ takeFields ws body = some (xs, []) := by
  unfold fields
  constructor
  · intro h
    split at h
    · next ys heq => rw [heq]; cases h; rfl
    · cases h
  · intro h
    rw [h]

/-- Settles O9: `takeFields_iff` with nothing left over. -/
theorem fieldsAreReadMostSignificantByteFirst : Obligations.FieldsAreReadMostSignificantByteFirst := by
  intro ws body xs
  rw [fields_eq_some_iff, takeFields_iff, List.append_nil]

/-! ### Changes of one port -/

section
variable {s : State} {p : Port} {f g : SlpPort → SlpPort}

theorem PerPort.upd_congr {α : Type} {x : PerPort α} {p : Port} {f g : α → α} (h : f (x.get p) = g (x.get p)) :
    x.upd p f = x.upd p g := by
  cases p <;> simp only [PerPort.get, PerPort.upd] at h ⊢ <;> rw [h]

/-- Two changes that agree at the port as it stands are one change. -/
theorem State.modPort_congr (h : f (s.port p) = g (s.port p)) : s.modPort p f = s.modPort p g := by
  unfold State.modPort
  rw [PerPort.upd_congr h]

/-- A change that leaves the port as it stands changes nothing. -/
theorem State.modPort_of_fixed (h : f (s.port p) = s.port p) : s.modPort p f = s := by
  rw [State.modPort_congr (g := id) h]
  cases p <;> rfl

end

/-! ### The receiver (R2) -/

/-- The bytes after an opener while their frame goes on: none yet, or a length up to 240 and fewer bytes than it asks. -/
def frameBegun (bs : List Byte) : Prop :=
  bs = [] ∨ ∃ (len : Byte) (rest : List Byte), bs = len :: rest ∧ len.toNat ≤ 240 ∧ rest.length < len.toNat + 3

theorem Receiver.takeAll_append (r : Receiver) (cs ds : List RxChar) :
    r.takeAll (cs ++ ds) =
      (((r.takeAll cs).1.takeAll ds).1, (r.takeAll cs).2 || ((r.takeAll cs).1.takeAll ds).2) := by
  induction cs generalizing r with
  | nil => rfl
  | cons c cs ih => simp only [List.cons_append, Receiver.takeAll, ih, Bool.or_assoc]

/-- An opener begins a frame. -/
theorem Receiver.takeAll_opener (cs : List RxChar) :
    Receiver.hunting.takeAll (⟨0xC3, true⟩ :: cs) = (Receiver.inFrame []).takeAll cs := rfl

/-- A byte within a frame that still lacks bytes after it joins the frame. -/
theorem Receiver.take_begun {got rest : List Byte} {b len : Byte} (h : got ++ [b] = len :: rest) (hlen : len.toNat ≤ 240)
    (hshort : rest.length < len.toNat + 3) : (Receiver.inFrame got).take ⟨b, true⟩ = (.inFrame (got ++ [b]), false) := by
  simp only [Receiver.take, h, List.length_cons, Bool.not_true, Bool.false_eq_true, if_false,
    show ¬len.toNat > 240 by omega, show rest.length + 1 < len.toNat + 4 by omega, if_true]

/-- Bytes of a frame that still lacks bytes after them all join it. -/
theorem Receiver.takeAll_begun (got bs : List Byte) (h : frameBegun (got ++ bs)) :
    (Receiver.inFrame got).takeAll (bs.map fun b => ⟨b, true⟩) = (.inFrame (got ++ bs), false) := by
  induction bs generalizing got with
  | nil => simp [Receiver.takeAll]
  | cons b bs ih =>
    have hb : got ++ b :: bs = (got ++ [b]) ++ bs := by simp
    rw [hb] at h ⊢
    have step : (Receiver.inFrame got).take ⟨b, true⟩ = (.inFrame (got ++ [b]), false) := by
      rcases h with h | ⟨len, rest, h, hlen, hshort⟩
      · simp at h
      · cases got with
        | nil =>
          simp only [List.nil_append, List.singleton_append, List.cons.injEq] at h
          obtain ⟨rfl, rfl⟩ := h
          exact Receiver.take_begun rfl hlen (by simp)
        | cons x xs =>
          simp only [List.cons_append, List.cons.injEq] at h
          obtain ⟨rfl, rfl⟩ := h
          exact Receiver.take_begun rfl hlen (Nat.lt_of_le_of_lt (by simp) hshort)
    simp only [List.map_cons, Receiver.takeAll, step, ih _ h, Bool.false_or]

/-- The last byte of a frame ends it: in a frame error unless the bytes after the opener sum to 0. -/
theorem Receiver.takeAll_whole (len : Byte) (rest : List Byte) (hlen : len.toNat ≤ 240)
    (hrest : rest.length = len.toNat + 3) :
    (Receiver.inFrame []).takeAll ((len :: rest).map fun b => ⟨b, true⟩) = (.hunting, sumBytes (len :: rest) != 0) := by
  obtain rfl | ⟨init, last, rfl⟩ := rest.eq_nil_or_concat
  · simp at hrest
  · rw [List.concat_eq_append] at hrest ⊢
    rw [List.length_append, List.length_singleton] at hrest
    have begun := Receiver.takeAll_begun [] (len :: init) (.inr ⟨len, init, rfl, hlen, by omega⟩)
    have ends : (Receiver.inFrame (len :: init)).take ⟨last, true⟩ = (.hunting, sumBytes (len :: (init ++ [last])) != 0) := by
      simp only [Receiver.take, List.cons_append, List.length_cons, List.length_append, Bool.not_true, Bool.false_eq_true,
        if_false, show ¬len.toNat > 240 by omega, List.length_nil, show ¬init.length + (0 + 1) + 1 < len.toNat + 4 by omega]
    rw [← List.cons_append, List.map_append, Receiver.takeAll_append, begun]
    simp only [List.map_cons, List.map_nil, Receiver.takeAll, List.nil_append, ends, Bool.or_false, Bool.false_or]
    rfl

/-- A port after a frame error: HUNTING, with FRAME_ERROR set. -/
def SlpPort.frameFailed (q : SlpPort) : SlpPort :=
  { q with receiver := .hunting, flags := { q.flags with frameError := true } }

section
variable {s : State} {p : Port} {cs : List RxChar}

/-- Characters that end a frame in a frame error do what it does to their port, and nothing else. -/
theorem exec_frameError_of_error (hears : s.hears p = true) (h : (s.port p).receiver.takeAll cs = (.hunting, true)) :
    exec (.frameError p cs) s = .next (s.modPort p SlpPort.frameFailed) := by
  have failed : (s.port p).receive cs = (s.port p).frameFailed := by
    simp only [SlpPort.receive, h, Bool.or_true, SlpPort.frameFailed]
  show Host.Outcome.next (if s.hears p then s.modPort p (·.receive cs) else s) = _
  rw [if_pos hears, State.modPort_congr failed]

/-- Characters that end a good frame leave a HUNTING port as it was. -/
theorem exec_frameError_of_good (hears : s.hears p = true) (hunting : (s.port p).receiver = .hunting)
    (h : (s.port p).receiver.takeAll cs = (.hunting, false)) : exec (.frameError p cs) s = .next s := by
  have same : (s.port p).receive cs = s.port p := by
    simp only [SlpPort.receive, h, Bool.or_false, ← hunting]
  show Host.Outcome.next (if s.hears p then s.modPort p (·.receive cs) else s) = _
  rw [if_pos hears, State.modPort_of_fixed same]

/-- Silence after characters that leave a frame begun is a frame error. -/
theorem exec_interCharacterTimeout_of_begun (hears : s.hears p = true) {got : List Byte}
    (h : (s.port p).receiver.takeAll cs = (.inFrame got, false)) :
    exec (.interCharacterTimeout p cs) s = .next (s.modPort p SlpPort.frameFailed) := by
  have failed : ((s.port p).receive cs).frameTimeout = (s.port p).frameFailed := by
    simp only [SlpPort.frameTimeout, SlpPort.receive, h, SlpPort.frameFailed]
  show Host.Outcome.next (if s.hears p then s.modPort p fun q => (q.receive cs).frameTimeout else s) = _
  rw [if_pos hears, State.modPort_congr (g := SlpPort.frameFailed) failed]

end

/-- Settles O10: the receiver is run over the characters by the lemmas above. -/
theorem frameErrorsSetOnlyTheirFlag : Obligations.FrameErrorsSetOnlyTheirFlag := by
  intro p s hears
  refine ⟨fun hunting => ⟨fun len hlen => ?_, fun len rest hlen hrest => ?_, fun bs begun => ?_⟩,
    fun got inFrame => ⟨fun b => ?_, fun bs begun => ?_⟩⟩
  · refine exec_frameError_of_error hears ?_
    rw [hunting, Receiver.takeAll_opener]
    simp [Receiver.takeAll, Receiver.take, hlen]
  · have ends : (s.port p).receiver.takeAll ((0xC3 :: len :: rest).map fun b => ⟨b, true⟩)
        = (.hunting, sumBytes (len :: rest) != 0) := by
      rw [hunting]; exact Receiver.takeAll_whole len rest hlen hrest
    split
    · next good => exact exec_frameError_of_good hears hunting (by rw [ends, good]; rfl)
    · next bad => exact exec_frameError_of_error hears (by rw [ends, bne_iff_ne.2 bad])
  · refine exec_interCharacterTimeout_of_begun hears (got := bs) ?_
    rw [hunting]
    exact Receiver.takeAll_begun [] bs begun
  · refine exec_frameError_of_error hears ?_
    rw [inFrame]
    rfl
  · refine exec_interCharacterTimeout_of_begun hears (got := got ++ bs) ?_
    rw [inFrame]
    exact Receiver.takeAll_begun got bs begun

/-! ### Arrivals (R4, R5) -/

section
variable {s : State} {p : Port} {k : ReqKind} {seq kind : Byte} {body : List Byte}

/-- A frame at a port that does not hear the line does not arrive. -/
theorem State.arrive_of_deaf (h : s.hears p = false) : s.arrive k p seq = (s, false) := by
  simp [State.arrive, h]

/-- A request at a port that does not hear the line changes nothing (R7). -/
theorem exec_of_deaf (h : s.hears p = false) : exec (k.command p seq body) s = .next s := by
  by_cases hk : k = .cancelWatch
  · subst hk
    show execCancelWatch p seq body s = _
    simp [execCancelWatch, h, State.request_of_deaf]
  · exact exec_of_refused s p k seq body (State.arrive_of_deaf h) (.inr hk)

/-- The slot is as it was when a frame has been heard. -/
theorem State.hear_slot : ((s.hear p).port p).slot = (s.port p).slot := by rw [State.port_hear]

/-- At an EMPTY slot the station is judged first (R5). -/
theorem State.arrive_of_role (hears : s.hears p = true) (empty : (s.port p).slot = .empty) (role : p ∉ k.stations) :
    s.arrive k p seq = (s.answeredAt k p seq .role (s.refusalBody k), false) := by
  have arrived : s.arrive k p seq = ((s.taken k p seq).reply p .role ((s.taken k p seq).refusalBody k), false) := by
    simp [State.arrive, hears, empty, role, State.taken]
  rw [arrived, State.taken_reply]
  cases k <;> rfl

/-- At an EMPTY slot the readiness is judged after the station (R5, R175). -/
theorem State.arrive_of_notReady (hears : s.hears p = true) (empty : (s.port p).slot = .empty) (role : p ∈ k.stations)
    (ready : k.admittedIn s.phase = false) :
    s.arrive k p seq = (s.answeredAt k p seq .notReady (s.refusalBody k), false) := by
  have arrived : s.arrive k p seq = ((s.taken k p seq).reply p .notReady ((s.taken k p seq).refusalBody k), false) := by
    simp [State.arrive, hears, empty, role, ready, State.taken]
  rw [arrived, State.taken_reply]
  cases k <;> rfl

/-- No row of the request table has the kind byte. -/
theorem isRequestKind_eq_false (h : ∀ k : ReqKind, k.code ≠ kind) : isRequestKind kind = false := by
  simp [isRequestKind, h]

/-- Settles O11: a request that is deaf, out of role or not ready never reaches its owner. -/
theorem roleAndReadinessAreCheckedInOrder : Obligations.RoleAndReadinessAreCheckedInOrder := by
  refine ⟨fun k p seq body s => ⟨exec_of_deaf, fun hears empty => ?_⟩, fun p seq kind s hears empty undefined => ?_⟩
  · have notParked : (s.port p).slot.isParked = false := by rw [empty]; rfl
    refine ⟨fun role => ?_, fun role ready => ?_⟩
    · exact exec_of_refused s p k seq body (State.arrive_of_role hears empty role) (.inl notParked)
    · exact exec_of_refused s p k seq body (State.arrive_of_notReady hears empty role ready) (.inl notParked)
  · show execUndefinedKindRequest p seq kind s = _
    simp only [execUndefinedKindRequest, hears, isRequestKind_eq_false undefined, Bool.not_true, Bool.or_false,
      Bool.false_eq_true, if_false, State.hear_slot, empty]
    cases p <;> rfl

end

/-! ### Collisions (R4) -/

/-- A port whose slot was occupied when a valid frame came (R4). -/
def SlpPort.collided (now : Nat) (q : SlpPort) : SlpPort :=
  { q with receiver := .hunting, silent := false, timer := some now, flags := { q.flags with collided := true } }

section
variable {s : State} {p : Port} {k : ReqKind} {seq kind : Byte} {body : List Byte}

/-- A frame heard and discarded changes its port alone. -/
theorem State.hear_collide : (s.hear p).collide p = s.modPort p (SlpPort.collided s.ms) := by cases p <;> rfl

/-- A request at an occupied slot collides. -/
theorem State.arrive_of_occupied (hears : s.hears p = true) (occupied : (s.port p).slot ≠ .empty) :
    s.arrive k p seq = (s.modPort p (SlpPort.collided s.ms), false) := by
  simp only [State.arrive, hears, Bool.not_true, Bool.false_eq_true, if_false, State.hear_slot, ← State.hear_collide]

theorem exec_of_occupied (hears : s.hears p = true) (occupied : (s.port p).slot ≠ .empty)
    (hp : (s.port p).slot.isParked = false ∨ k ≠ .cancelWatch) :
    exec (k.command p seq body) s = .next (s.modPort p (SlpPort.collided s.ms)) :=
  exec_of_refused s p k seq body (State.arrive_of_occupied hears occupied) hp

theorem exec_collided (hears : s.hears p = true) (h : (s.port p).collides kind = true) :
    exec (.collided p kind) s = .next (s.modPort p (SlpPort.collided s.ms)) := by
  show execCollided p kind s = _
  simp only [execCollided, hears, h, Bool.and_self, if_true, State.hear_collide]

/-- A frame of a kind outside the request table collides at an occupied slot too. -/
theorem exec_undefined_of_occupied (hears : s.hears p = true) (occupied : (s.port p).slot ≠ .empty)
    (undefined : ∀ k : ReqKind, k.code ≠ kind) :
    exec (.undefinedKindRequest p seq kind) s = .next (s.modPort p (SlpPort.collided s.ms)) := by
  show execUndefinedKindRequest p seq kind s = _
  simp only [execUndefinedKindRequest, hears, isRequestKind_eq_false undefined, Bool.not_true, Bool.or_false,
    Bool.false_eq_true, if_false, State.hear_slot, ← State.hear_collide]

/-- CANCEL WATCH at a PARKED slot ends the watch and is answered after it (R15). -/
theorem exec_cancelWatch_of_parked {n : Byte} {w : Watch} (hears : s.hears p = true) (h : (s.port p).slot = .parked n w) :
    exec (.cancelWatch p seq body) s
      = .next (s.modPort p fun q =>
          { q with receiver := .hunting, silent := false, timer := some s.ms,
                   slot := .answering ⟨n, 0x03, .cancelled, []⟩ (some ⟨seq, 0x04, .ok, []⟩) }) := by
  show execCancelWatch p seq body s = _
  simp only [execCancelWatch, hears, h, Slot.isParked, Bool.and_self, if_true, State.hear, State.modPort_modPort]
  rw [State.modPort_congr]
  simp only [Function.comp, SlpPort.cancel, h]
  rfl

end

/-- Settles O12: each frame at an occupied slot collides, but for CANCEL WATCH at a PARKED one. -/
theorem anOccupiedSlotCollides : Obligations.AnOccupiedSlotCollides := by
  refine fun p seq body s hears => ⟨fun holding => ?_, fun n w parked => ?_⟩
  · have occupied : (s.port p).slot ≠ .empty ∧ (s.port p).slot.isParked = false ∧
        ∀ kind, (s.port p).collides kind = true := by
      rcases holding with ⟨n, kind, h⟩ | ⟨a, b, h⟩ <;> simp [SlpPort.collides, Slot.isParked, h]
    obtain ⟨notEmpty, notParked, collides⟩ := occupied
    exact ⟨fun k => exec_of_occupied hears notEmpty (.inl notParked), fun kind => exec_collided hears (collides kind),
      fun kind undefined => exec_undefined_of_occupied hears notEmpty undefined⟩
  · have occupied : (s.port p).slot ≠ .empty := by simp [parked]
    have collides (kind : Byte) (hk : kind ≠ 0x04) : (s.port p).collides kind = true := by
      simp only [SlpPort.collides, parked]
      exact bne_iff_ne.2 hk
    exact ⟨fun k hk => exec_of_occupied hears occupied (.inr hk), fun kind hk => exec_collided hears (collides kind hk),
      fun kind undefined => exec_undefined_of_occupied hears occupied undefined, exec_cancelWatch_of_parked hears parked⟩

/-! ### Port resets (R17) -/

/-- A capture stays after a port reset when it is another port's (R34). -/
theorem Wbu.abandon_capture_iff (w : Wbu) (p : Port) (c : Capture) :
    (w.abandon p).capture = some c ↔ w.capture = some c ∧ c.port ≠ p := by
  unfold Wbu.abandon
  split
  · next x hx =>
    split
    · next hp => simp only [hx, Option.some.injEq, reduceCtorEq, false_iff]; rintro ⟨rfl, hc⟩; exact hc hp
    · next hp =>
      rw [hx, Option.some.injEq]
      exact ⟨fun h => ⟨h, h ▸ hp⟩, And.left⟩
  · next hx => simp [hx]

/-- A port reset touches nothing of the Weighbridge Unit but its capture (R34). -/
theorem Wbu.abandon_eq (w : Wbu) (p : Port) : w.abandon p = { w with capture := (w.abandon p).capture } := by
  unfold Wbu.abandon
  split
  · split <;> rfl
  · rfl

theorem ConfigJob.orphan_eq (p : Port) (j : ConfigJob) :
    j.orphan p = if j.port = some p then { j with port := none } else j := by
  unfold ConfigJob.orphan
  split
  · rfl
  · rfl

/-- The state after a port reset at a port that hears (R17, R34, R169). -/
def State.portReset (s : State) (p : Port) : State :=
  { s.modPort p (fun _ => SlpPort.reset s.ms) with
    wbu := s.wbu.abandon p, rsc := { s.rsc with jobs := s.rsc.jobs.map (ConfigJob.orphan p) } }

/-- Settles O13: `State.portReset` says what a line break leaves, part by part. -/
theorem portResetClearsOnePort : Obligations.PortResetClearsOnePort := by
  refine fun p s => ⟨fun hears => ⟨s.portReset p, ?_, ?_, ?_, fun q hq => ?_, fun c => ?_, ?_, fun n j hj => ?_⟩,
    fun deaf => ?_, fun live inBreak => ?_⟩
  · exact congrArg Host.Outcome.next (if_pos hears)
  · show s.portReset p = { s.portReset p with
      wbu := { s.wbu with capture := (s.wbu.abandon p).capture } }
    rw [← Wbu.abandon_eq]
    rfl
  · exact State.port_modPort s p _
  · exact State.port_modPort_other s p _ hq
  · exact s.wbu.abandon_capture_iff p c
  · exact List.length_map _
  · show (s.rsc.jobs.map (ConfigJob.orphan p))[n]? = _
    rw [List.getElem?_map, hj, Option.map_some, ConfigJob.orphan_eq]
  · exact congrArg Host.Outcome.next (if_neg (by simp [deaf]))
  · refine congrArg Host.Outcome.next ((if_pos live).trans (State.modPort_congr ?_))
    simp only [SlpPort.lineIdle, inBreak]

/-! ### Transmissions (R6, R7, R9) -/

/-- An answer's frame is opener, length, sequence, kind plus 0x80, code, flags, body and check (R6). -/
theorem Answer.frame_eq (a : Answer) (f : PortFlags) :
    a.frame f = (0xC3 : Byte) :: ((BitVec.ofNat 8 (a.body.length + 2) :: a.seq :: (a.kind + 0x80) :: a.code.byte ::
      BitVec.ofNat 8 f.byte :: a.body) ++ [checkByte (BitVec.ofNat 8 (a.body.length + 2) :: a.seq :: (a.kind + 0x80) ::
        a.code.byte :: BitVec.ofNat 8 f.byte :: a.body)]) := rfl

/-- The parts of an answer's frame: what stands before the check, its length and its sum (section 1.2). -/
theorem Answer.frame_form (a : Answer) (f : PortFlags) :
    (a.frame f).take (6 + a.body.length)
      = [0xC3, BitVec.ofNat 8 (a.body.length + 2), a.seq, a.kind + 0x80, a.code.byte, BitVec.ofNat 8 f.byte] ++ a.body ∧
    (a.frame f).length = a.body.length + 7 ∧ sumBytes ((a.frame f).drop 1) = 0 := by
  rw [Answer.frame_eq]
  refine ⟨?_, ?_, sumBytes_checked _⟩
  · rw [← List.cons_append, List.take_left' (by simp only [List.length_cons]; omega)]
    rfl
  · simp only [List.length_cons, List.length_append, List.length_nil]

section
variable {s : State} {p : Port}

/-- A waiting answer is sent first, with the port's flags, which it clears (R6, R7). -/
theorem SlpPort.transmit_answer {q : SlpPort} {a : Answer} {b : Option Answer} (hr : q.receiver = .hunting) (ht : q.tx = none)
    (hs : q.slot = .answering a b) :
    q.transmit = { q with tx := some (.answer (a.frame q.flags)), flags := .clear } := by
  simp only [SlpPort.transmit, hr, ht, hs]

/-- With no answer waiting the oldest notice is sent (R7, R9). -/
theorem SlpPort.transmit_notice {q : SlpPort} {n : Notice} {ns : List Notice} (hr : q.receiver = .hunting) (ht : q.tx = none)
    (hs : ∀ a b, q.slot ≠ .answering a b) (hn : q.notices = n :: ns) :
    q.transmit = { q with tx := some (.notice n.frame) } := by
  cases hq : q.slot with
  | answering a b => exact absurd hq (hs a b)
  | empty | acting seq kind | parked seq w => simp only [SlpPort.transmit, hr, ht, hn, hq]

theorem exec_transmissionStart (live : s.live = true) :
    exec (.transmissionStart p) s = .next (s.modPort p SlpPort.transmit) := congrArg Host.Outcome.next (if_pos live)

/-- The end of an answer that is no accepted RESTART's changes its port alone (R6, R15). -/
theorem exec_answerSent {f : List Byte} (live : s.live = true) (ht : (s.port p).tx = some (.answer f))
    (hr : (s.port p).slot.isRestart = false) :
    exec (.answerSent p) s = .next (s.modPort p fun q => { q with tx := none, slot := q.slot.sent }) := by
  show execAnswerSent p s = _
  simp [execAnswerSent, live, SlpPort.sendsAnswer, ht, hr]

theorem exec_noticeSent {f : List Byte} (live : s.live = true) (ht : (s.port p).tx = some (.notice f)) :
    exec (.noticeSent p) s = .next (s.modPort p fun q => { q with tx := none, notices := q.notices.tail }) := by
  show execNoticeSent p s = _
  simp [execNoticeSent, live, SlpPort.sendsNotice, ht]

end

/-- Settles O14: `SlpPort.transmit` takes the answer first and a notice else, and each end changes its port alone. -/
theorem transmissionsSendAnswersFirst : Obligations.TransmissionsSendAnswersFirst := by
  refine ⟨fun a f _ => a.frame_form f, fun p s live => ⟨fun hunting quiet => ⟨fun a b answering => ?_,
    fun n ns noAnswer waiting => ?_⟩, fun f a b sending answering other => ?_, fun f n ns sending waiting => ?_⟩⟩
  · rw [exec_transmissionStart live, State.modPort_congr]
    exact SlpPort.transmit_answer hunting quiet answering
  · rw [exec_transmissionStart live, State.modPort_congr]
    exact SlpPort.transmit_notice hunting quiet noAnswer waiting
  · have notRestart : (s.port p).slot.isRestart = false := by
      rw [answering, Slot.isRestart, Bool.and_eq_false_iff]
      by_cases hk : a.kind = 0x59
      · exact .inr (beq_eq_false_iff_ne.2 fun hc => other ⟨hk, hc⟩)
      · exact .inl (beq_eq_false_iff_ne.2 hk)
    rw [exec_answerSent live sending notRestart, State.modPort_congr]
    simp only [answering]
    cases b <;> rfl
  · rw [exec_noticeSent live sending, State.modPort_congr]
    simp only [waiting, List.tail_cons]

/-! ### Revisions (R10) -/

/-- Changing the elements of one key, the key kept, changes the element the key finds. -/
theorem find?_map_of_key {α : Type} (key : α → Nat) (f : α → α) (hf : ∀ x, key (f x) = key x) (n : Nat) (xs : List α) :
    (xs.map fun x => if key x = n then f x else x).find? (key · == n) = (xs.find? (key · == n)).map f := by
  induction xs with
  | nil => rfl
  | cons x xs ih =>
    by_cases h : key x = n
    · simp [h, hf]
    · simp [h, ih]

section
variable {s : State} {p : Port} {r : RecRef} {rev : Nat}

/-- The next revision stands after a record's revision was raised. -/
theorem State.rev_raiseRev (s : State) (r : RecRef) : (s.raiseRev r).rev r = (s.rev r).map nextRev := by
  cases r with
  | bin i => simp [State.raiseRev, State.rev]
  | pit i => simp [State.raiseRev, State.rev]
  | segment i => simp [State.raiseRev, State.rev]
  | batchList => rfl
  | berth => rfl
  | ticket n =>
    simp only [State.rev, State.ticket, State.raiseRev, State.modTicket, Option.map_map,
      find?_map_of_key Ticket.number (fun t => { t with rev := nextRev t.rev }) fun _ => rfl]
    rfl
  | lot n =>
    simp only [State.rev, State.lot, State.raiseRev, State.modLot, Option.map_map,
      find?_map_of_key Lot.number (fun t => { t with rev := nextRev t.rev }) fun _ => rfl]
    rfl
  | claim n =>
    simp only [State.rev, State.claim, State.raiseRev, State.modClaim, Option.map_map,
      find?_map_of_key Claim.number (fun t => { t with rev := nextRev t.rev }) fun _ => rfl]
    rfl

/-- A hand-over changes no revision. -/
theorem State.rev_handOver (s : State) (r x : RecRef) : (s.handOver x).rev r = s.rev r := by
  cases r <;>
    simp [State.rev, State.bin, State.pit, State.seg, State.ticket, State.lot, State.claim]

/-- A report of a revision changes no revision. -/
theorem State.rev_reportRevision (s : State) (r x : RecRef) (n : Nat) : (s.reportRevision x n).rev r = s.rev r := by
  cases r <;> rfl

/-- A revision change of an existing record: it rises, the record is handed over, and its number is reported. -/
theorem State.revise_of_rev (h : s.rev r = some rev) :
    s.revise r = ((s.raiseRev r).handOver r).reportRevision r (nextRev rev) := by
  have raised : ((s.raiseRev r).handOver r).rev r = some (nextRev rev) := by
    rw [State.rev_handOver, State.rev_raiseRev, h]; rfl
  simp only [State.revise, raised]

/-- The ports after a revision change of an existing record. -/
theorem State.port_revise_of_rev (h : s.rev r = some rev) :
    (s.revise r).port p = SlpPort.endWatch r .changed (u16 (nextRev rev)) (s.port p) := by
  rw [State.revise_of_rev h, State.port_reportRevision]
  simp [State.port]

/-- A revision change ends a watch on its record at most, with CHANGED. -/
theorem State.port_revise (s : State) (r : RecRef) (p : Port) :
    (s.revise r).port p = s.port p ∨ ∃ n, (s.revise r).port p = SlpPort.endWatch r .changed (u16 n) (s.port p) := by
  cases h : s.rev r with
  | some rev => exact .inr ⟨nextRev rev, State.port_revise_of_rev h⟩
  | none =>
    have raised : ((s.raiseRev r).handOver r).rev r = none := by rw [State.rev_handOver, State.rev_raiseRev, h]; rfl
    exact .inl (by simp [State.revise, raised, State.port])

/-! ### Watches (R13 to R15) -/

/-- A watch ends on an event of its own record alone (R14). -/
theorem SlpPort.endWatch_parked_slot {q : SlpPort} {n : Byte} {w : Watch} {code : Code} {x : List Byte}
    (h : q.slot = .parked n w) :
    (q.endWatch r code x).slot = if w.subject = r then .answering ⟨n, 0x03, code, x⟩ none else .parked n w := by
  simp only [SlpPort.endWatch, h]
  split
  · rfl
  · exact h

/-- No event of a record touches a slot that holds an answer. -/
theorem SlpPort.endWatch_answering {q : SlpPort} {a : Answer} {b : Option Answer} {code : Code} {x : List Byte}
    (h : q.slot = .answering a b) : q.endWatch r code x = q :=
  SlpPort.endWatch_of_slot _ _ fun n w hp => by rw [h] at hp; cases hp

/-- The expiry of a parked watch moves time to it and ends the watch EXPIRED (R14; log entry 3). -/
theorem exec_watchExpired {n : Byte} {w : Watch} {due : Nat} (live : s.live = true) (h : (s.port p).slot = .parked n w)
    (hw : w.expiry = some due) :
    exec (.watchExpired p) s = .next ({ s with ms := max s.ms due }.modPort p fun q =>
      { q with slot := .answering ⟨n, 0x03, .expired, []⟩ none }) := by
  show execWatchExpired p s = _
  simp only [execWatchExpired, live, h, Slot.expiry, hw]
  refine congrArg Host.Outcome.next (State.modPort_congr (s := s.advanceTo due) ?_)
  have hp : ((s.advanceTo due).port p).slot = .parked n w := h
  simp only [SlpPort.expireWatch, hp]
  rfl

/-- An expiry with no watch parked has no effect (log entry 3). -/
theorem exec_watchExpired_of_answering {a : Answer} {b : Option Answer} (h : (s.port p).slot = .answering a b) :
    exec (.watchExpired p) s = .next s := by
  show execWatchExpired p s = _
  simp only [execWatchExpired, h, Slot.expiry]
  cases s.live <;> rfl

end

/-- Settles O17: each event ends a watch on its record by `endWatch`, which leaves any other slot alone. -/
theorem watchesEndOnceOnTheFirstEvent : Obligations.WatchesEndOnceOnTheFirstEvent := by
  refine ⟨fun p s n w r rev parked hrev => ⟨?_, ?_⟩, fun p s n w due live parked hw => exec_watchExpired live parked hw,
    fun p s n w r x parked => ?_, fun p s a b r x answering => ⟨?_, ?_, exec_watchExpired_of_answering answering⟩,
    fun p seq s accepts => ?_⟩
  · rw [State.revise_of_rev hrev, State.rev_reportRevision, State.rev_handOver, State.rev_raiseRev, hrev]
    rfl
  · rw [State.port_revise_of_rev hrev, SlpPort.endWatch_parked_slot parked]
    rfl
  · rw [State.port_reportDeletion, SlpPort.endWatch_parked_slot parked]
  · rcases s.port_revise r p with h | ⟨m, h⟩
    · rw [h, answering]
    · rw [h, SlpPort.endWatch_answering answering, answering]
  · rw [State.port_reportDeletion, SlpPort.endWatch_answering answering, answering]
  · have notParked : (s.port p).slot.isParked = false := by rw [accepts.2.1]; rfl
    show execCancelWatch p seq [] s = _
    simp only [execCancelWatch, notParked, Bool.and_false, Bool.false_eq_true, if_false]
    rw [State.request_reply s p .cancelWatch seq .badState [] accepts rfl]

section
variable {s : State} {p : Port} {seq : Byte} {body : List Byte} {kind index expected timeout : Nat} {r : RecRef} {rev : Nat}

/-- Taking a request changes no revision. -/
theorem State.rev_taken (k : ReqKind) (s : State) (p : Port) (seq : Byte) (r : RecRef) :
    (s.taken k p seq).rev r = s.rev r := by
  cases r <;> rfl

/-- WATCH outside the kinds and index ranges is answered RANGE (R13). -/
theorem exec_watch_range (ha : s.accepts .watch p) (hf : fields [1, 2, 2, 2] body = some [kind, index, expected, timeout])
    (hr : recOf kind index = none) : exec (.watch p seq body) s = .next (s.answeredAt .watch p seq .range []) :=
  congrArg Host.Outcome.next (State.request_reply _ _ _ _ _ _ ha (by simp only [Ev.watch, hf, hr]))

/-- WATCH on a record that does not exist is answered NOT_FOUND (R13). -/
theorem exec_watch_notFound (ha : s.accepts .watch p)
    (hf : fields [1, 2, 2, 2] body = some [kind, index, expected, timeout]) (hr : recOf kind index = some r)
    (hrev : s.rev r = none) : exec (.watch p seq body) s = .next (s.answeredAt .watch p seq .notFound []) :=
  congrArg Host.Outcome.next (State.request_reply _ _ _ _ _ _ ha (by
    simp only [Ev.watch, hf, hr, Ev.start_st, State.rev_taken, hrev]))

/-- WATCH with another revision than the current one is answered CHANGED with the current one (R13). -/
theorem exec_watch_changed (ha : s.accepts .watch p)
    (hf : fields [1, 2, 2, 2] body = some [kind, index, expected, timeout]) (hr : recOf kind index = some r)
    (hrev : s.rev r = some rev) (hne : rev ≠ expected) :
    exec (.watch p seq body) s = .next (s.answeredAt .watch p seq .changed (u16 rev)) :=
  congrArg Host.Outcome.next (State.request_reply _ _ _ _ _ _ ha (by
    simp only [Ev.watch, hf, hr, Ev.start_st, State.rev_taken, hrev, ne_eq, Ne.symm hne, not_false_eq_true, if_true]))

/-- WATCH with the current revision parks (R13). -/
theorem exec_watch_parks (ha : s.accepts .watch p)
    (hf : fields [1, 2, 2, 2] body = some [kind, index, expected, timeout]) (hr : recOf kind index = some r)
    (hrev : s.rev r = some expected) :
    exec (.watch p seq body) s = .next (s.modPort p fun q =>
      { q with receiver := .hunting, silent := false, timer := some s.ms,
               slot := .parked seq ⟨r, expected, watchExpiry s.ms timeout⟩ }) := by
  have parks : Ev.watch p seq body (Ev.start (s.taken .watch p seq))
      = (Ev.start (s.taken .watch p seq)).map (·.modPort p fun q =>
          { q with slot := .parked seq ⟨r, expected, watchExpiry s.ms timeout⟩ }) := by
    simp only [Ev.watch, hf, hr, Ev.start_st, State.rev_taken, hrev, ne_eq, not_true_eq_false, if_false]
    rfl
  refine congrArg Host.Outcome.next ?_
  rw [State.request_of_accepts _ _ _ _ _ ha, State.event, parks, Ev.commit_of_untouched _ rfl, Ev.map_st, Ev.start_st]
  cases p <;> rfl

end

/-- Settles O16: the lines of R13 in order. -/
theorem watchParksOrAnswersChanged : Obligations.WatchParksOrAnswersChanged := by
  intro p seq body s kind index expected timeout ha hf
  split
  · next hr => exact exec_watch_range ha hf hr
  · next r hr =>
    split
    · next hrev => exact exec_watch_notFound ha hf hr hrev
    · next rev hrev =>
      refine ⟨exec_watch_changed ha hf hr hrev, ?_⟩
      rintro rfl
      exact exec_watch_parks ha hf hr hrev

end Sys2Proof.Machine
end

section
/-! PROOF. A station's silence (R16): what trips and the freeing of claims leave alone, what they do to the claim table,
and the event of a silence timer's expiry. -/
namespace Sys2Proof.Machine

/-! ### Ports that are told of revisions, deletions and notices (R8, R9, R14) -/

/-- Port `y` is port `x` after some revision changes, deletions and notices: its line stands, and its slot too unless a
watch parked there ended. -/
structure SlpPort.Told (x y : SlpPort) : Prop where
  receiver : y.receiver = x.receiver
  silent : y.silent = x.silent
  timer : y.timer = x.timer
  tx : y.tx = x.tx
  tripped : y.flags.silentTripped = x.flags.silentTripped
  slot : y.slot = x.slot ∨ ∃ n w code b, x.slot = .parked n w ∧ y.slot = .answering ⟨n, watchKind, code, b⟩ none ∧
    (code = .changed ∨ code = .gone)

theorem SlpPort.Told.refl (x : SlpPort) : x.Told x := ⟨rfl, rfl, rfl, rfl, rfl, .inl rfl⟩

theorem SlpPort.Told.trans {x y z : SlpPort} (h : x.Told y) (h' : y.Told z) : x.Told z where
  receiver := h'.receiver.trans h.receiver
  silent := h'.silent.trans h.silent
  timer := h'.timer.trans h.timer
  tx := h'.tx.trans h.tx
  tripped := h'.tripped.trans h.tripped
  slot := by
    rcases h.slot with hxy | ⟨n, w, code, b, hx, hy, hcode⟩
    · rw [← hxy]; exact h'.slot
    · rcases h'.slot with hyz | ⟨m, w', _, _, hy', _⟩
      · exact .inr ⟨n, w, code, b, hx, hyz.trans hy, hcode⟩
      · rw [hy] at hy'; cases hy'

theorem SlpPort.told_endWatch (x : SlpPort) (r : RecRef) {code : Code} (b : List Byte)
    (hcode : code = .changed ∨ code = .gone) : x.Told (x.endWatch r code b) := by
  unfold SlpPort.endWatch
  split
  · next n w hx =>
    split
    · exact ⟨rfl, rfl, rfl, rfl, rfl, .inr ⟨n, w, code, b, hx, rfl, hcode⟩⟩
    · exact .refl x
  · exact .refl x

theorem SlpPort.told_offer (x : SlpPort) (n : Notice) : x.Told (x.offer n) := by
  unfold SlpPort.offer
  split <;> exact ⟨rfl, rfl, rfl, rfl, rfl, .inl rfl⟩

/-! ### What trips and the freeing of claims leave alone -/

/-- A record that is no ticket and no lot. -/
def RecRef.outsideRegister : RecRef → Bool
  | .ticket _ | .lot _ => false
  | .bin _ | .pit _ | .claim _ | .batchList | .berth | .segment _ => true

/-- A location's record, as an event touches one (R94, R124, R155). -/
def RecRef.isLocation : RecRef → Bool
  | .bin _ | .pit _ | .batchList | .berth => true
  | .ticket _ | .lot _ | .claim _ | .segment _ => false

theorem RecRef.outsideRegister_of_isLocation {r : RecRef} (h : r.isLocation = true) : r.outsideRegister = true := by
  cases r with
  | bin i | pit i | batchList | berth => rfl
  | ticket n | lot n | claim n | segment i => cases h

/-- What trips and the freeing of claims leave alone (R101, R111). -/
structure State.ClaimFrame (s t : State) : Prop where
  ms : t.ms = s.ms
  clock : t.clock = s.clock
  cfg : t.cfg = s.cfg
  wbu : t.wbu = s.wbu
  tlr : t.tlr = s.tlr
  store : t.rsc.store = s.rsc.store
  standing : t.evr.standing = s.evr.standing
  ports : ∀ q, (s.port q).Told (t.port q)

/-- The same in the course of an event that touches locations alone. -/
structure Ev.ClaimFrame (e : Ev) (s : State) : Prop where
  frame : s.ClaimFrame e.st
  touched : ∀ r ∈ e.touched, r.isLocation = true

section
variable {s t : State} {e : Ev} {p : Port}

theorem State.ClaimFrame.refl (s : State) : s.ClaimFrame s :=
  ⟨rfl, rfl, rfl, rfl, rfl, rfl, rfl, fun _ => .refl _⟩

theorem State.ClaimFrame.modRc {x : Rc} (h : s.ClaimFrame t) : s.ClaimFrame { t with rc := x } :=
  ⟨h.ms, h.clock, h.cfg, h.wbu, h.tlr, h.store, h.standing, h.ports⟩

theorem State.ClaimFrame.modClaim {n : Nat} {f : Claim → Claim} (h : s.ClaimFrame t) :
    s.ClaimFrame (t.modClaim n f) := h.modRc

theorem State.ClaimFrame.modSeg {i : SegIx} {f : Segment → Segment} (h : s.ClaimFrame t) :
    s.ClaimFrame (t.modSeg i f) := h.modRc

theorem State.ClaimFrame.enqueue {id : SlotId} (h : s.ClaimFrame t) : s.ClaimFrame (t.enqueue id) where
  ms := by simpa using h.ms
  clock := by simpa using h.clock
  cfg := by simpa using h.cfg
  wbu := by simpa using h.wbu
  tlr := by simpa using h.tlr
  store := by simpa using h.store
  standing := by simpa using h.standing
  ports q := by simpa [State.port] using h.ports q

theorem State.ClaimFrame.handOver {r : RecRef} (h : s.ClaimFrame t) : s.ClaimFrame (t.handOver r) := by
  unfold State.handOver
  split
  · exact h.enqueue
  · exact h

theorem State.revise_tlr {r : RecRef} (hr : r.outsideRegister = true) : (s.revise r).tlr = s.tlr := by
  have raised : (s.raiseRev r).tlr = s.tlr := by
    cases r with
    | ticket n | lot n => cases hr
    | bin i | pit i | claim n | batchList | berth | segment i => rfl
  unfold State.revise
  dsimp only
  split
  · show ((s.raiseRev r).handOver r).tlr = _; simpa using raised
  · simpa using raised

theorem State.ClaimFrame.revise {r : RecRef} (h : s.ClaimFrame t) (hr : r.outsideRegister = true) :
    s.ClaimFrame (t.revise r) where
  ms := by simpa using h.ms
  clock := by simpa using h.clock
  cfg := by simpa using h.cfg
  wbu := by simpa using h.wbu
  tlr := (State.revise_tlr hr).trans h.tlr
  store := by simpa using h.store
  standing := by simpa using h.standing
  ports q := by
    rcases t.port_revise r q with hq | ⟨n, hq⟩
    · rw [hq]; exact h.ports q
    · rw [hq]; exact (h.ports q).trans (SlpPort.told_endWatch _ _ _ (.inl rfl))

theorem State.ClaimFrame.reportDeletion {r : RecRef} {b : List Byte} (h : s.ClaimFrame t) :
    s.ClaimFrame (t.reportDeletion r b) where
  ms := h.ms
  clock := h.clock
  cfg := h.cfg
  wbu := h.wbu
  tlr := h.tlr
  store := h.store
  standing := h.standing
  ports q := by
    rw [State.port_reportDeletion]
    exact (h.ports q).trans (SlpPort.told_endWatch _ _ _ (.inr rfl))

theorem State.ClaimFrame.offer {ps : List Port} {k : NoticeKind} {b : List Byte} (h : s.ClaimFrame t) :
    s.ClaimFrame (t.offer ps k b) where
  ms := h.ms
  clock := h.clock
  cfg := h.cfg
  wbu := h.wbu
  tlr := h.tlr
  store := h.store
  standing := h.standing
  ports q := by
    rw [State.port_offer]
    split
    · exact (h.ports q).trans (SlpPort.told_offer _ _)
    · exact h.ports q

/-- What a plant event does to the event record (R178, R181). -/
theorem State.logEvent_evr (s : State) (k : EventKind) (x : Subject) (v : Int) :
    (s.logEvent k x v).evr =
      if s.evr.standing then s.evr.enter s.term k x (fitSigned32 v)
      else { s.evr with held := s.evr.held ++ [⟨0, s.term, k, x, fitSigned32 v⟩] } := by
  unfold State.logEvent
  split <;> simp

theorem State.logEvent_standing (s : State) (k : EventKind) (x : Subject) (v : Int) :
    (s.logEvent k x v).evr.standing = s.evr.standing := by
  rw [State.logEvent_evr]
  split <;> rfl

/-- The event record after an event depends on the record before it and on terminal time alone. -/
theorem State.logEvent_evr_congr {k : EventKind} {x : Subject} {v : Int} (hevr : s.evr = t.evr) (hterm : s.term = t.term) :
    (s.logEvent k x v).evr = (t.logEvent k x v).evr := by
  simp only [State.logEvent_evr, hevr, hterm]

theorem State.ClaimFrame.logEvent {k : EventKind} {x : Subject} {v : Int} (h : s.ClaimFrame t) :
    s.ClaimFrame (t.logEvent k x v) where
  ms := by simpa using h.ms
  clock := by simpa using h.clock
  cfg := by simpa using h.cfg
  wbu := by simpa using h.wbu
  tlr := by simpa using h.tlr
  store := by simpa using h.store
  standing := (State.logEvent_standing ..).trans h.standing
  ports q := by simpa [State.port] using h.ports q

/-! ### The same for an event -/

/-- A change of state in the course of an event. -/
theorem Ev.ClaimFrame.change {f : State → State} (h : e.ClaimFrame s) (hf : s.ClaimFrame e.st → s.ClaimFrame (f e.st)) :
    (e.map f).ClaimFrame s := ⟨hf h.frame, h.touched⟩

theorem Ev.ClaimFrame.foldl {β : Type} {f : Ev → β → Ev} {bs : List β} (h : e.ClaimFrame s)
    (hf : ∀ e b, e.ClaimFrame s → (f e b).ClaimFrame s) : (bs.foldl f e).ClaimFrame s :=
  foldl_keeps (·.ClaimFrame s) f hf bs e h

theorem Ev.ClaimFrame.changeSeg {i : SegIx} {f : Segment → Segment} (h : e.ClaimFrame s) :
    (e.changeSeg i f).ClaimFrame s := h.change fun h => h.modSeg.revise rfl

theorem Ev.ClaimFrame.changeSegs {is : List SegIx} {f : Segment → Segment} (h : e.ClaimFrame s) :
    (is.foldl (fun e i => e.changeSeg i f) e).ClaimFrame s := h.foldl fun _ _ h => h.changeSeg

theorem Ev.ClaimFrame.touch {r : RecRef} (h : e.ClaimFrame s) (hr : r.isLocation = true) : (e.touch r).ClaimFrame s where
  frame := h.frame.handOver
  touched x hx := by
    unfold Ev.touch at hx
    dsimp only at hx
    split at hx
    · exact h.touched x hx
    · rcases List.mem_append.1 hx with hx | hx
      · exact h.touched x hx
      · rw [List.mem_singleton.1 hx]; exact hr

theorem Ev.ClaimFrame.touchLoc {l : Loc} (h : e.ClaimFrame s) : (e.touchLoc l).ClaimFrame s := by
  cases l with
  | reject => exact h
  | bin i | pit i | dryer | berth => exact h.touch rfl

theorem Ev.ClaimFrame.trip {n : Nat} {cause : TripCause} (h : e.ClaimFrame s) : (e.trip n cause).ClaimFrame s := by
  unfold Ev.trip
  split
  · exact h
  · split
    · refine Ev.ClaimFrame.change ?_ fun h => h.offer
      refine Ev.ClaimFrame.change ?_ fun h => h.logEvent
      refine Ev.ClaimFrame.change ?_ fun h => h.enqueue
      refine Ev.ClaimFrame.change (Ev.ClaimFrame.touchLoc (Ev.ClaimFrame.touchLoc ?_)) fun h => h.modRc
      exact Ev.ClaimFrame.change h.changeSegs fun h => h.modClaim.revise rfl
    · exact h

theorem Ev.ClaimFrame.freeClaim {n : Nat} {keep : Option SegIx} (h : e.ClaimFrame s) : (e.freeClaim n keep).ClaimFrame s := by
  refine Ev.ClaimFrame.change (f := (·.reportDeletion (.claim n) [])) ?_ fun h => h.reportDeletion
  exact Ev.ClaimFrame.change h.changeSegs fun h => h.modRc

theorem Ev.ClaimFrame.silenceClaims (h : e.ClaimFrame s) : (e.silenceClaims p).ClaimFrame s :=
  (h.foldl fun _ _ h => h.trip).foldl fun _ _ h => h.freeClaim

/-! ### What they do to the claim table -/

/-- A claim once its transfer has tripped in a state: a RUNNING one drains, any other is as it was (R111). -/
def Claim.drained (s : State) (cause : TripCause) (c : Claim) : Claim :=
  match c.state with
  | .running t =>
    { c with state := .draining { t with cause := some cause, tripTime := s.term } (s.ms + 1000 * s.drainTime c.route),
             rev := nextRev c.rev }
  | _ => c

@[simp] theorem Claim.drained_number (cause : TripCause) (c : Claim) : (c.drained s cause).number = c.number := by
  unfold Claim.drained
  split <;> rfl

@[simp] theorem Claim.drained_holder (cause : TripCause) (c : Claim) : (c.drained s cause).holder = c.holder := by
  unfold Claim.drained
  split <;> rfl

theorem Claim.drained_of_running {cause : TripCause} {c : Claim} {x : Transfer} (h : c.state = .running x) :
    c.drained s cause =
      { c with state := .draining { x with cause := some cause, tripTime := s.term } (s.ms + 1000 * s.drainTime c.route),
               rev := nextRev c.rev } := by
  simp [Claim.drained, h]

theorem Claim.drained_of_not_running {cause : TripCause} {c : Claim} (h : ∀ x, c.state ≠ .running x) :
    c.drained s cause = c := by
  unfold Claim.drained
  split
  · next x hx => exact absurd hx (h x)
  · rfl

@[simp] theorem Claim.drained_drained (cause : TripCause) (c : Claim) :
    (c.drained s cause).drained s cause = c.drained s cause := by
  cases hc : c.state with
  | running x => rw [Claim.drained_of_running hc]; rfl
  | claimed | draining x due => simp [Claim.drained, hc]

theorem State.ClaimFrame.term (h : s.ClaimFrame t) : t.term = s.term := by
  simp only [State.term, State.secs, h.clock, h.ms]

/-- Trips in a state with the time and the routes of `s` drain alike. -/
theorem State.ClaimFrame.drained (h : s.ClaimFrame t) : Claim.drained t = Claim.drained s := by
  funext cause c
  simp only [Claim.drained, State.drainTime, State.route, h.term, h.ms, h.cfg]

theorem State.revise_rc (s : State) (r : RecRef) : (s.revise r).rc = (s.raiseRev r).rc := by
  unfold State.revise
  dsimp only
  split
  · exact State.handOver_rc ..
  · exact State.handOver_rc ..

theorem State.modClaim_claims (s : State) (n : Nat) (f : Claim → Claim) :
    (s.modClaim n f).rc.claims = s.rc.claims.map fun c => if c.number = n then f c else c := rfl

theorem State.revise_claim_claims (s : State) (n : Nat) :
    (s.revise (.claim n)).rc.claims
      = s.rc.claims.map fun c => if c.number = n then { c with rev := nextRev c.rev } else c :=
  congrArg Rc.claims (s.revise_rc _)

/-- A revision change of a location is none of the Route Controller's. -/
theorem State.revise_location_rc {r : RecRef} (hr : r.isLocation = true) : (s.revise r).rc = s.rc := by
  rw [State.revise_rc]
  cases r with
  | bin i | pit i | batchList | berth => rfl
  | ticket n | lot n | claim n | segment i => cases hr

theorem Ev.changeSeg_claims (e : Ev) (i : SegIx) (f : Segment → Segment) :
    (e.changeSeg i f).st.rc.claims = e.st.rc.claims := by
  show ((e.st.modSeg i f).revise (.segment i)).rc.claims = _
  rw [State.revise_rc]
  rfl

theorem Ev.changeSegs_claims (e : Ev) (is : List SegIx) (f : Segment → Segment) :
    (is.foldl (fun e i => e.changeSeg i f) e).st.rc.claims = e.st.rc.claims :=
  foldl_keeps (fun x : Ev => x.st.rc.claims = e.st.rc.claims) _
    (fun x i h => (x.changeSeg_claims i f).trans h) is e rfl

theorem Ev.touchLoc_rc (e : Ev) (l : Loc) : (e.touchLoc l).st.rc = e.st.rc := by
  cases l with
  | reject => rfl
  | bin i | pit i | dryer | berth => exact State.handOver_rc ..

/-- In a table with distinct numbers a claim is known by its number. -/
theorem Claim.eq_of_number {cs : List Claim} (hnd : (cs.map (·.number)).Nodup) {c d : Claim} (hc : c ∈ cs) (hd : d ∈ cs)
    (h : c.number = d.number) : c = d := by
  induction cs with
  | nil => cases hc
  | cons x xs ih =>
    rw [List.map_cons, List.nodup_cons] at hnd
    obtain ⟨fresh, hnd⟩ := hnd
    have other {y : Claim} (hy : y ∈ xs) : y.number ≠ x.number := fun hn => fresh (hn ▸ List.mem_map.2 ⟨y, hy, rfl⟩)
    rcases List.mem_cons.1 hc with rfl | hcs
    · rcases List.mem_cons.1 hd with rfl | hds
      · rfl
      · exact absurd h.symm (other hds)
    · rcases List.mem_cons.1 hd with rfl | hds
      · exact absurd h (other hcs)
      · exact ih hnd hcs hds

/-- In a table with distinct numbers a claim is found by its number. -/
theorem State.claim_of_mem {c : Claim} (hnd : (s.rc.claims.map (·.number)).Nodup) (hc : c ∈ s.rc.claims) {d : Claim}
    (hd : s.claim c.number = some d) : c = d := by
  have found : s.rc.claims.find? (·.number == c.number) = some d := hd
  have number : (d.number == c.number) = true := List.find?_some (p := fun x : Claim => x.number == c.number) found
  exact Claim.eq_of_number hnd hc (List.mem_of_find?_eq_some found) (beq_iff_eq.1 number).symm

theorem Ev.trip_claims {n : Nat} {cause : TripCause} (hnd : (e.st.rc.claims.map (·.number)).Nodup) :
    (e.trip n cause).st.rc.claims = e.st.rc.claims.map fun c => if c.number = n then c.drained e.st cause else c := by
  have unchanged (h : ∀ c ∈ e.st.rc.claims, c.number = n → ∀ x, c.state ≠ .running x) :
      e.st.rc.claims = e.st.rc.claims.map fun c => if c.number = n then c.drained e.st cause else c := by
    refine ((List.map_congr_left fun c hc => ?_).trans (List.map_id _)).symm
    split
    · next hn => exact Claim.drained_of_not_running (h c hc hn)
    · rfl
  unfold Ev.trip
  split
  · next none =>
    refine unchanged fun c hc hn => absurd (List.find?_eq_none.1 none c hc) (by simpa using hn)
  · next d hd =>
    split
    · next x hx =>
      rw [Ev.offer_st, State.offer_rc, Ev.log_st, State.logEvent_rc, Ev.enqueue_st, State.enqueue_rc]
      show (Ev.touchLoc (Ev.touchLoc _ _) _).st.rc.claims = _
      rw [Ev.touchLoc_rc, Ev.touchLoc_rc, Ev.map_st, State.revise_claim_claims, State.modClaim_claims, Ev.changeSegs_claims,
        List.map_map]
      refine List.map_congr_left fun c hc => ?_
      simp only [Function.comp_apply]
      by_cases hn : c.number = n
      · obtain rfl : c = d := State.claim_of_mem hnd hc (hn ▸ hd)
        simp [hn, Claim.drained_of_running hx]
      · simp [hn]
    · next hx =>
      refine unchanged fun c hc hn => ?_
      rw [State.claim_of_mem hnd hc (hn ▸ hd)]
      exact hx


/-- Trips of several claims, one after the other. -/
theorem Ev.ClaimFrame.trips_claims {cause : TripCause} (ns : List Nat) (h : e.ClaimFrame s)
    (hnd : (e.st.rc.claims.map (·.number)).Nodup) :
    (ns.foldl (fun e n => e.trip n cause) e).st.rc.claims
      = e.st.rc.claims.map fun c => if c.number ∈ ns then c.drained s cause else c := by
  induction ns generalizing e with
  | nil => simp
  | cons n ns ih =>
    have first := Ev.trip_claims (cause := cause) (n := n) hnd
    rw [h.frame.drained] at first
    have numbers : (e.trip n cause).st.rc.claims.map (·.number) = e.st.rc.claims.map (·.number) := by
      rw [first, List.map_map]
      refine List.map_congr_left fun c _ => ?_
      simp only [Function.comp_apply]
      split <;> simp
    rw [List.foldl_cons, ih h.trip (numbers ▸ hnd), first, List.map_map]
    refine List.map_congr_left fun c _ => ?_
    simp only [Function.comp_apply, List.mem_cons]
    by_cases hn : c.number = n <;> by_cases hns : c.number ∈ ns <;> simp [hn, hns]

theorem Ev.freeClaim_claims (e : Ev) (n : Nat) (keep : Option SegIx) :
    (e.freeClaim n keep).st.rc.claims = e.st.rc.claims.filter (·.number != n) := by
  show List.filter _ (Ev.st _).rc.claims = _
  rw [Ev.changeSegs_claims]

/-- Several claims freed, one after the other. -/
theorem Ev.freeClaims_claims (ns : List Nat) (keep : Option SegIx) (e : Ev) :
    (ns.foldl (fun e n => e.freeClaim n keep) e).st.rc.claims = e.st.rc.claims.filter fun c => decide (c.number ∉ ns) := by
  induction ns generalizing e with
  | nil => exact (List.filter_eq_self.2 fun _ _ => by simp only [List.not_mem_nil, not_false_eq_true, decide_true]).symm
  | cons n ns ih =>
    rw [List.foldl_cons, ih, Ev.freeClaim_claims, List.filter_filter]
    refine List.filter_congr fun c _ => ?_
    by_cases hn : c.number = n <;> simp [hn]

/-- In a table with distinct numbers, the number of a claim is one of a selection when the claim is selected. -/
theorem mem_numbers_filter_iff {cs : List Claim} (hnd : (cs.map (·.number)).Nodup) {c : Claim} (hc : c ∈ cs)
    (sel : Claim → Bool) : c.number ∈ (cs.filter sel).map (·.number) ↔ sel c = true := by
  constructor
  · intro h
    obtain ⟨d, hd, hn⟩ := List.mem_map.1 h
    obtain ⟨hd, hsel⟩ := List.mem_filter.1 hd
    exact Claim.eq_of_number hnd hd hc hn ▸ hsel
  · exact fun h => List.mem_map.2 ⟨c, List.mem_filter.2 ⟨hc, h⟩, rfl⟩

/-- A station's silence: its CLAIMED claims are gone and its RUNNING ones drain (R112). -/
theorem Ev.ClaimFrame.silenceClaims_claims (h : e.ClaimFrame s) (hnd : (e.st.rc.claims.map (·.number)).Nodup) :
    (e.silenceClaims p).st.rc.claims
      = (e.st.rc.claims.filter fun c => !(c.holder == p && c.state == .claimed)).map
          fun c => if c.holder = p then c.drained s .silence else c := by
  have tripped := h.trips_claims (cause := .silence)
    ((e.st.rc.claims.filter fun c => (c.runs fun _ => true) && c.holder == p).map (·.number)) hnd
  have drains : (e.st.rc.claims.map fun c =>
      if c.number ∈ (e.st.rc.claims.filter fun c => (c.runs fun _ => true) && c.holder == p).map (·.number)
        then c.drained s .silence else c) = e.st.rc.claims.map fun c => if c.holder = p then c.drained s .silence else c := by
    refine List.map_congr_left fun c hc => ?_
    simp only [mem_numbers_filter_iff hnd hc]
    cases hs : c.state with
    | running x => simp [Claim.runs, hs]
    | claimed | draining x due =>
      rw [Claim.drained_of_not_running (by simp [hs])]
      simp
  simp only [Ev.silenceClaims, List.filter_filter]
  rw [Ev.freeClaims_claims, tripped, drains, List.filter_map]
  refine congrArg (List.map _) (List.filter_congr fun c hc => ?_)
  simp only [Function.comp_apply, apply_ite Claim.number, Claim.drained_number, ite_self, mem_numbers_filter_iff hnd hc]
  cases c.holder == p <;> cases c.state == .claimed <;> rfl

/-! ### The end of the event -/

/-- A notice stands at the newest end of a port's queue, or was dropped with NOTICE_OVERRUN (R9). -/
def SlpPort.Offered (n : Notice) (x : SlpPort) : Prop :=
  x.notices.getLast? = some n ∨ (8 ≤ x.notices.length ∧ x.flags.noticeOverrun = true)

theorem SlpPort.offered_offer (x : SlpPort) (n : Notice) : (x.offer n).Offered n := by
  unfold SlpPort.offer
  split
  · exact .inl (by simp)
  · next h => exact .inr ⟨by simpa using h, rfl⟩

theorem SlpPort.Offered.endWatch {n : Notice} {x : SlpPort} {r : RecRef} {code : Code} {b : List Byte} (h : x.Offered n) :
    (x.endWatch r code b).Offered n := by
  unfold SlpPort.endWatch
  split
  · split <;> exact h
  · exact h

/-- The revision changes that end an event leave its offered notices where they are. -/
theorem Ev.offered_commit {n : Notice} {q : Port} (h : (e.st.port q).Offered n) : (e.commit.st.port q).Offered n := by
  refine foldl_keeps (fun x : State => (x.port q).Offered n) _ (fun x r hx => ?_) e.touched e.st h
  rcases x.port_revise r q with hq | ⟨m, hq⟩
  · rw [hq]; exact hx
  · rw [hq]; exact hx.endWatch

theorem State.ClaimFrame.foldl_revise {rs : List RecRef} (h : s.ClaimFrame t) (hrs : ∀ r ∈ rs, r.isLocation = true) :
    s.ClaimFrame (rs.foldl (fun s r => s.revise r) t) ∧ (rs.foldl (fun s r => s.revise r) t).rc = t.rc := by
  induction rs generalizing t with
  | nil => exact ⟨h, rfl⟩
  | cons r rs ih =>
    have hr := hrs r List.mem_cons_self
    obtain ⟨frame, rc⟩ := ih (h.revise (RecRef.outsideRegister_of_isLocation hr)) fun x hx => hrs x (List.mem_cons_of_mem _ hx)
    exact ⟨frame, rc.trans (State.revise_location_rc hr)⟩

theorem Ev.ClaimFrame.commit (h : e.ClaimFrame s) : s.ClaimFrame e.commit.st := (h.frame.foldl_revise h.touched).1

theorem Ev.ClaimFrame.commit_rc (h : e.ClaimFrame s) : e.commit.st.rc = e.st.rc :=
  (h.frame.foldl_revise h.touched).2

/-- A port at the expiry of its silence timer (R16). -/
def SlpPort.fallSilent (q : SlpPort) : SlpPort := { q with silent := true, timer := none }

/-- A port that sets SILENT_TRIPPED once the claims have been seen to (R16). -/
def SlpPort.markTripped (q : SlpPort) : SlpPort := { q with flags := { q.flags with silentTripped := true } }

theorem SlpPort.Told.markTripped {x y : SlpPort} (h : x.Told y) : x.markTripped.Told y.markTripped :=
  ⟨h.receiver, h.silent, h.timer, h.tx, rfl, h.slot⟩

theorem Ev.ClaimFrame.markTripped (h : e.ClaimFrame s) :
    (e.map (·.modPort p .markTripped)).ClaimFrame (s.modPort p .markTripped) where
  touched := h.touched
  frame := by
    refine ⟨h.frame.ms, h.frame.clock, h.frame.cfg, h.frame.wbu, h.frame.tlr, h.frame.store, h.frame.standing, fun q => ?_⟩
    by_cases hq : q = p
    · subst hq
      simpa using (h.frame.ports q).markTripped
    · simpa [State.port_modPort_other _ _ _ hq] using h.frame.ports q

/-- The event of a silence timer's expiry before its STATION_SILENT notice is raised. -/
def Ev.tripStation (e : Ev) (p : Port) : Ev :=
  ((e.map (·.modPort p .fallSilent)).silenceClaims p).map (·.modPort p .markTripped)

theorem Ev.fallSilent_eq (e : Ev) (p : Port) :
    e.fallSilent p
      = ((e.tripStation p).offer allPorts .stationSilent (u8 (portNo p))).log .stationSilent (.port (portNo p)) 0 := rfl

/-- The state in which a station's claims are tripped and freed, its port's flag set already. -/
def State.fallen (s : State) (p : Port) : State := (s.modPort p .fallSilent).modPort p .markTripped

theorem Ev.claimFrame_start (s : State) (p : Port) :
    ((Ev.start s).map (·.modPort p .fallSilent)).ClaimFrame (s.modPort p .fallSilent) :=
  ⟨.refl _, fun _ h => by cases h⟩

theorem Ev.claimFrame_tripStation (s : State) (p : Port) : ((Ev.start s).tripStation p).ClaimFrame (s.fallen p) :=
  (Ev.claimFrame_start s p).silenceClaims.markTripped

theorem Ev.claimFrame_fallSilent (s : State) (p : Port) : ((Ev.start s).fallSilent p).ClaimFrame (s.fallen p) := by
  rw [Ev.fallSilent_eq]
  refine Ev.ClaimFrame.change (f := (·.logEvent _ _ _)) ?_ fun h => h.logEvent
  exact Ev.ClaimFrame.change (f := (·.offer _ _ _)) (Ev.claimFrame_tripStation s p) fun h => h.offer

theorem State.silence_claims (s : State) (p : Port) (hnd : (s.rc.claims.map (·.number)).Nodup) :
    (s.event fun e => e.fallSilent p).rc.claims
      = (s.rc.claims.filter fun c => !(c.holder == p && c.state == .claimed)).map
          fun c => if c.holder = p then c.drained s .silence else c := by
  have rc : (s.event fun e => e.fallSilent p).rc = ((Ev.start s).tripStation p).st.rc := by
    rw [State.event, (Ev.claimFrame_fallSilent s p).commit_rc, Ev.fallSilent_eq, Ev.log_st, State.logEvent_rc]
    rfl
  rw [rc]
  exact (Ev.claimFrame_start s p).silenceClaims_claims hnd

/-- The claim table after a silence, claim by claim. -/
theorem State.mem_silence_claims (s : State) (p : Port) (hnd : (s.rc.claims.map (·.number)).Nodup) (d : Claim) :
    d ∈ (s.event fun e => e.fallSilent p).rc.claims ↔
      ∃ c ∈ s.rc.claims, (c.holder = p → c.state ≠ .claimed) ∧ (if c.holder = p then c.drained s .silence else c) = d := by
  have kept (c : Claim) : (!(c.holder == p && c.state == .claimed)) = true ↔ (c.holder = p → c.state ≠ .claimed) := by
    by_cases hp : c.holder = p <;> by_cases hs : c.state = .claimed <;> simp [hp, hs]
  rw [s.silence_claims p hnd, List.mem_map]
  simp only [List.mem_filter, kept, and_assoc]

/-- What is left of a claim of the station drains. -/
theorem Claim.drained_state {cause : TripCause} {c : Claim} (h : c.state ≠ .claimed) :
    ∃ x due, (c.drained s cause).state = .draining x due := by
  cases hc : c.state with
  | claimed => exact absurd hc h
  | running x => exact ⟨_, _, by rw [Claim.drained_of_running hc]⟩
  | draining x due => exact ⟨x, due, by rw [Claim.drained_of_not_running (by simp [hc]), hc]⟩

theorem State.silence_offered (s : State) (p q : Port) :
    ((s.event fun e => e.fallSilent p).port q).Offered ⟨.stationSilent, u8 (portNo p)⟩ := by
  refine Ev.offered_commit (e := (Ev.start s).fallSilent p) ?_
  rw [Ev.fallSilent_eq, Ev.log_st]
  have told : allPorts.contains q = true := by cases q <;> rfl
  have logged (x : State) : (x.logEvent .stationSilent (.port (portNo p)) 0).port q = x.port q := by simp [State.port]
  rw [logged, Ev.offer_st, State.port_offer, if_pos told]
  exact SlpPort.offered_offer _ _

/-- STATION_SILENT is the last event logged. -/
theorem State.silence_evr (s : State) (p : Port) :
    let t := s.event fun e => e.fallSilent p
    ∃ r, r.standing = s.evr.standing ∧ t.evr = ({ t with evr := r }.logEvent .stationSilent (.port (portNo p)) 0).evr := by
  intro t
  have frame : (s.fallen p).ClaimFrame t := (Ev.claimFrame_fallSilent s p).commit
  have before := (Ev.claimFrame_tripStation s p).frame
  have time : t.term = ((Ev.start s).tripStation p).st.term := frame.term.trans before.term.symm
  refine ⟨((Ev.start s).tripStation p).st.evr, before.standing, ?_⟩
  have logged : t.evr = ((Ev.start s).fallSilent p).st.evr := (Ev.commit_frame _).evr
  rw [logged, Ev.fallSilent_eq, Ev.log_st]
  exact State.logEvent_evr_congr rfl time.symm

theorem exec_silenceTimeout {start : Nat} (live : s.live = true) (heard : (s.port p).silent = false)
    (timer : (s.port p).timer = some start) :
    exec (.silenceTimeout p) s = .next ((s.advanceTo (start + s.silenceSpan)).event fun e => e.fallSilent p) := by
  show execSilenceTimeout p s = _
  simp [execSilenceTimeout, live, heard, timer]

theorem State.port_fallen (s : State) (p : Port) : (s.fallen p).port p = (s.port p).fallSilent.markTripped := by
  simp [State.fallen]

theorem State.port_fallen_other {q : Port} (h : q ≠ p) : (s.fallen p).port q = s.port q := by
  simp [State.fallen, State.port_modPort_other _ _ _ h]

theorem State.port_fallen_slot (s : State) (p q : Port) : ((s.fallen p).port q).slot = (s.port q).slot := by
  by_cases hq : q = p
  · rw [hq, State.port_fallen]; rfl
  · rw [State.port_fallen_other hq]
end

/-- Settles O15: the trips and the freeing of claims leave the frame, the claim table is known claim by claim, and the
notice and the log entry of the port come last. -/
theorem silenceTripsAndFreesTheStationsClaims : Obligations.SilenceTripsAndFreesTheStationsClaims := by
  unfold Obligations.SilenceTripsAndFreesTheStationsClaims
  intro p s start live heard timer hnd
  refine ⟨_, exec_silenceTimeout live heard timer, ?_⟩
  generalize hs' : s.advanceTo (start + s.silenceSpan) = s'
  have frame : (s'.fallen p).ClaimFrame (s'.event fun e => e.fallSilent p) := (Ev.claimFrame_fallSilent s' p).commit
  have mem := s'.mem_silence_claims p (by rw [← hs']; exact hnd)
  have offered := s'.silence_offered p
  have logged := s'.silence_evr p
  generalize (s'.event fun e => e.fallSilent p) = t at *
  have own := frame.ports p
  rw [State.port_fallen] at own
  have rc : s'.rc.claims = s.rc.claims := by rw [← hs']; rfl
  have ports (q : Port) : s'.port q = s.port q := by rw [← hs']; rfl
  rw [rc] at mem
  refine ⟨own.silent, own.timer, own.tripped, ?_, ?_, ?_, ?_, ?_, ?_, ?_, ?_, ?_, ?_, ?_, ?_, ?_, ?_⟩
  · rw [frame.ms, ← hs']; rfl
  · intro d hd hp
    obtain ⟨c, -, kept, rfl⟩ := (mem d).1 hd
    by_cases hc : c.holder = p
    · rw [if_pos hc]; exact Claim.drained_state (kept hc)
    · rw [if_neg hc] at hp; exact absurd hp hc
  · rintro c hc (hp | ⟨x, due, hx⟩)
    · exact (mem c).2 ⟨c, hc, fun h => absurd h hp, if_neg hp⟩
    · exact (mem c).2 ⟨c, hc, by simp [hx], by rw [Claim.drained_of_not_running (by simp [hx]), ite_self]⟩
  · intro d hd hp
    obtain ⟨c, hc, -, rfl⟩ := (mem d).1 hd
    by_cases h : c.holder = p
    · rw [if_pos h, Claim.drained_holder] at hp; exact absurd h hp
    · rw [if_neg h]; exact hc
  · rintro c hc hp ⟨x, hx⟩
    refine ⟨_, (mem _).2 ⟨c, hc, by simp [hx], if_pos hp⟩, Claim.drained_number .., ?_⟩
    rw [Claim.drained_of_running hx]
    exact ⟨_, _, rfl, rfl⟩
  · intro q
    rw [← ports q, ← State.port_fallen_slot s' p q]
    exact (frame.ports q).slot
  · intro q
    rw [show [BitVec.ofNat 8 (portNo p)] = u8 (portNo p) by cases p <;> rfl]
    exact offered q
  · rw [← hs'] at logged
    exact logged
  · intro q hq
    have told := frame.ports q
    rw [State.port_fallen_other hq, ports q] at told
    exact ⟨told.receiver, told.silent, told.timer, told.tx⟩
  · rw [frame.wbu, ← hs']; rfl
  · rw [frame.tlr, ← hs']; rfl
  · rw [frame.cfg, ← hs']; rfl
  · rw [frame.clock, ← hs']; rfl
  · rw [frame.store, ← hs']; rfl

end Sys2Proof.Machine
end

section
/-! PROOF. The standard mass of a lot (R58) and the rescale of a barge's targets (R65, R66). -/
namespace Sys2Proof.Machine

/-! ### Standard mass (R58) -/

/-- A ceiling is bracketed: multiplied back, it is at least the dividend and exceeds it by less than the divisor. -/
theorem ceilDiv_bounds (a : Nat) {b : Nat} (hb : 0 < b) : a ≤ b * ceilDiv a b ∧ b * ceilDiv a b < a + b := by
  have hmod := Nat.mod_lt (a + b - 1) hb
  have hdiv := Nat.div_add_mod (a + b - 1) b
  unfold ceilDiv
  omega

/-- The water-corrected mass of R58. -/
def waterCorrected (c : Commodity) (net moisture : Nat) : Nat := net * (1000 - moisture) / (1000 - c.base)

theorem standardMass_of_no_shrink {c : Commodity} {moisture : Nat} (net : Nat)
    (h : c.configured = false ∨ moisture ≤ c.base) : standardMass c net moisture = ⟨0, 0, net⟩ := by
  refine if_neg fun hc => ?_
  obtain ⟨hconf, hm⟩ := Bool.and_eq_true_iff.1 hc
  have := of_decide_eq_true hm
  rcases h with h | h
  · simp [h] at hconf
  · omega

theorem standardMass_of_shrink {c : Commodity} {moisture : Nat} (net : Nat) (hconf : c.configured = true)
    (hm : c.base < moisture) : standardMass c net moisture =
      ⟨net - waterCorrected c net moisture, ceilDiv (net * c.handling) 10000,
        waterCorrected c net moisture - ceilDiv (net * c.handling) 10000⟩ :=
  if_pos (by simp [hconf, hm])

/-- The water-corrected mass is the greatest whole number that fits the quotient of R58. -/
theorem waterCorrected_bounds (c : Commodity) (net moisture : Nat) (hb : c.base ≤ 300) :
    waterCorrected c net moisture * (1000 - c.base) ≤ net * (1000 - moisture) ∧
      net * (1000 - moisture) < (waterCorrected c net moisture + 1) * (1000 - c.base) :=
  ⟨Nat.div_mul_le_self .., Nat.lt_mul_of_div_lt (Nat.lt_succ_self _) (by omega)⟩

/-- Above the base some water is lost. -/
theorem waterCorrected_lt {c : Commodity} {net moisture : Nat} (hn : 0 < net) (hb : c.base ≤ 300)
    (hm : c.base < moisture) : waterCorrected c net moisture < net :=
  Nat.div_lt_of_lt_mul <| by
    rw [Nat.mul_comm]
    exact Nat.mul_lt_mul_of_pos_right (by omega) hn

/-- The handling shrink never exceeds the water-corrected mass: at least 65 % of the net is left after the water, and
the handling takes at most 1 % of it, rounded up. -/
theorem handling_le_waterCorrected {c : Commodity} {net moisture : Nat} (hb : c.base ≤ 300) (hh : c.handling ≤ 100)
    (hm : moisture ≤ 350) (hn : 5 ≤ net) : ceilDiv (net * c.handling) 10000 ≤ waterCorrected c net moisture := by
  have hceil := (ceilDiv_bounds (net * c.handling) (show 0 < 10000 by decide)).2
  have hfloor := (waterCorrected_bounds c net moisture hb).2
  have hallow : net * c.handling ≤ net * 100 := Nat.mul_le_mul_left _ hh
  have hdry : net * 650 ≤ net * (1000 - moisture) := Nat.mul_le_mul_left _ (by omega)
  have hbase : (waterCorrected c net moisture + 1) * (1000 - c.base) ≤ (waterCorrected c net moisture + 1) * 1000 :=
    Nat.mul_le_mul_left _ (by omega)
  omega

/-- Settles O29: the cases of R58, with the handling shrink below the water-corrected mass. -/
theorem standardMassAndShrinksAccountForTheNet : Obligations.StandardMassAndShrinksAccountForTheNet := by
  intro c net moisture hb hh hm hn
  have hplain := standardMass_of_no_shrink (c := c) (moisture := moisture) net
  by_cases hs : c.configured = true ∧ c.base < moisture
  · obtain ⟨hconf, habove⟩ := hs
    have hle := handling_le_waterCorrected hb hh hm hn
    have hpos : 0 < net := by omega
    have hlt := waterCorrected_lt hpos hb habove
    obtain ⟨hlow, hhigh⟩ := waterCorrected_bounds c net moisture hb
    obtain ⟨hclow, hchigh⟩ := ceilDiv_bounds (net * c.handling) (show 0 < 10000 by decide)
    refine ⟨?_, hplain, fun _ _ => ?_⟩
    · rw [standardMass_of_shrink net hconf habove]
      dsimp only
      omega
    · rw [standardMass_of_shrink net hconf habove]
      dsimp only
      rw [Nat.sub_add_cancel hle]
      refine ⟨hlow, hhigh, hlt, rfl, by omega, hclow, hchigh, fun hallow => ?_⟩
      have := Nat.mul_pos hpos hallow
      omega
  · have hno : c.configured = false ∨ moisture ≤ c.base := by
      rwa [Decidable.not_and_iff_or_not, Bool.not_eq_true, Nat.not_lt] at hs
    exact ⟨by simp [hplain hno], hplain, fun hconf habove => absurd ⟨hconf, habove⟩ hs⟩

/-! ### Handing out the shortfall (R66) -/

/-- A pass hands out what it no longer holds, 100 kg a unit. -/
theorem handOutPass_sum (hs : List (Nat × Nat)) (units : Nat) :
    ((handOutPass hs units).1.map (·.2)).sum + 100 * (handOutPass hs units).2 = (hs.map (·.2)).sum + 100 * units := by
  fun_induction handOutPass hs units with
  | case1 units => rfl
  | case2 units r q hs hgive hs' left heq ih => simp [heq] at ih ⊢; omega
  | case3 units r q hs hpass hs' left heq ih => simp [heq] at ih ⊢; omega

/-- A pass leaves the remainders from before the rescale alone. -/
theorem handOutPass_map_fst (hs : List (Nat × Nat)) (units : Nat) :
    (handOutPass hs units).1.map (·.1) = hs.map (·.1) := by
  fun_induction handOutPass hs units with
  | case1 units => rfl
  | case2 units r q hs hgive hs' left heq ih => simpa [heq] using ih
  | case3 units r q hs hpass hs' left heq ih => simpa [heq] using ih

/-- A pass lifts no scaled remainder above the one from before the rescale. -/
theorem handOutPass_le {hs : List (Nat × Nat)} (units : Nat) (h : ∀ x ∈ hs, x.2 ≤ x.1) :
    ∀ x ∈ (handOutPass hs units).1, x.2 ≤ x.1 := by
  fun_induction handOutPass hs units with
  | case1 units => exact h
  | case2 units r q hs hgive hs' left heq ih =>
    rw [List.forall_mem_cons] at h ⊢
    exact ⟨hgive.2, by simpa [heq] using ih h.2⟩
  | case3 units r q hs hpass hs' left heq ih =>
    rw [List.forall_mem_cons] at h ⊢
    exact ⟨h.1, by simpa [heq] using ih h.2⟩

/-- What every pass keeps, the whole handing out keeps. -/
theorem handOut_induction {P : List (Nat × Nat) → Nat → Prop}
    (hpass : ∀ hs units, P hs units → P (handOutPass hs units).1 (handOutPass hs units).2)
    (fuel : Nat) (hs : List (Nat × Nat)) (units : Nat) (h : P hs units) : ∃ left, P (handOut fuel hs units) left := by
  induction fuel generalizing hs units with
  | zero => exact ⟨units, h⟩
  | succ fuel ih =>
    have h' := hpass hs units h
    unfold handOut
    dsimp only
    split
    · exact ⟨_, h'⟩
    · exact ih _ _ h'

/-! ### Remainders and new targets (R65) -/

/-- The remainders of the unfinished barge holds of a plan, in plan order (step 3 of R65). -/
def remainders (plan : List (Nat × Nat)) : List Nat := (plan.filter fun h => h.2 < h.1).map fun h => h.1 - h.2

@[simp] theorem remainders_nil : remainders [] = [] := rfl

theorem remainders_cons_of_finished {target loaded : Nat} (plan : List (Nat × Nat)) (h : target ≤ loaded) :
    remainders ((target, loaded) :: plan) = remainders plan := by
  simp [remainders, h]

theorem remainders_cons_of_unfinished {target loaded : Nat} (plan : List (Nat × Nat)) (h : ¬ target ≤ loaded) :
    remainders ((target, loaded) :: plan) = (target - loaded) :: remainders plan := by
  simp [remainders, Nat.not_le.1 h]

/-- `qs` holds the remainders of a plan from before the rescale, each beside a new one that is no greater. -/
def Fits (plan qs : List (Nat × Nat)) : Prop := qs.map (·.1) = remainders plan ∧ ∀ x ∈ qs, x.2 ≤ x.1

theorem Fits.tail_of_finished {target loaded : Nat} {plan qs : List (Nat × Nat)} (h : target ≤ loaded)
    (hq : Fits ((target, loaded) :: plan) qs) : Fits plan qs := by
  rwa [Fits, remainders_cons_of_finished plan h] at hq

/-- An unfinished barge hold takes the first of the new remainders. -/
theorem Fits.tail_of_unfinished {target loaded : Nat} {plan qs : List (Nat × Nat)} {x : Nat × Nat}
    (h : ¬ target ≤ loaded) (hq : Fits ((target, loaded) :: plan) (x :: qs)) :
    x.2 ≤ target - loaded ∧ Fits plan qs := by
  obtain ⟨hfst, hle⟩ := hq
  rw [remainders_cons_of_unfinished plan h, List.map_cons, List.cons.injEq] at hfst
  rw [List.forall_mem_cons] at hle
  exact ⟨hfst.1 ▸ hle.1, hfst.2, hle.2⟩

theorem Fits.not_nil_of_unfinished {target loaded : Nat} {plan : List (Nat × Nat)} (h : ¬ target ≤ loaded) :
    ¬ Fits ((target, loaded) :: plan) [] := by
  rintro ⟨hfst, -⟩
  simp [remainders_cons_of_unfinished plan h] at hfst

/-- `x` is a lawful new target of a barge hold given as (target, loaded): never raised, not below the loaded mass of an
unfinished barge hold, and unchanged at a finished one. -/
def Retargeted (h : Nat × Nat) (x : Nat) : Prop := x ≤ h.1 ∧ (h.2 < h.1 → h.2 ≤ x) ∧ (h.1 ≤ h.2 → x = h.1)

/-- Putting remainders back keeps the number of barge holds. -/
theorem retarget_length (plan qs : List (Nat × Nat)) : (retarget plan qs).length = plan.length := by
  fun_induction retarget plan qs with
  | case1 qs => rfl
  | case2 target loaded plan qs hfin ih => exact congrArg (· + 1) ih
  | case3 target loaded plan hun r q qs ih => exact congrArg (· + 1) ih
  | case4 target loaded plan hun ih => exact congrArg (· + 1) ih

/-- Remainders that fit make every new target lawful. -/
theorem retarget_retargeted {plan qs : List (Nat × Nat)} (hq : Fits plan qs) :
    ∀ y ∈ plan.zip (retarget plan qs), Retargeted y.1 y.2 := by
  fun_induction retarget plan qs with
  | case1 qs => intro y hy; cases hy
  | case2 target loaded plan qs hfin ih =>
    rw [List.zip_cons_cons, List.forall_mem_cons]
    exact ⟨⟨Nat.le_refl _, fun h => absurd hfin (Nat.not_le.2 h), fun _ => rfl⟩, ih (hq.tail_of_finished hfin)⟩
  | case3 target loaded plan hun r q qs ih =>
    obtain ⟨hle, hq'⟩ := hq.tail_of_unfinished hun
    rw [List.zip_cons_cons, List.forall_mem_cons]
    refine ⟨⟨?_, fun _ => Nat.le_add_right .., fun h => absurd h hun⟩, ih hq'⟩
    dsimp only at hle ⊢
    omega
  | case4 target loaded plan hun ih => exact absurd hq (Fits.not_nil_of_unfinished hun)

/-- The new targets come to at most the loaded masses and the new remainders. -/
theorem retarget_sum_le {plan qs : List (Nat × Nat)} (hq : Fits plan qs) :
    (retarget plan qs).sum ≤ (plan.map (·.2)).sum + (qs.map (·.2)).sum := by
  fun_induction retarget plan qs with
  | case1 qs => exact Nat.zero_le _
  | case2 target loaded plan qs hfin ih =>
    have := ih (hq.tail_of_finished hfin)
    simp only [List.map_cons, List.sum_cons]
    omega
  | case3 target loaded plan hun r q qs ih =>
    have := ih (hq.tail_of_unfinished hun).2
    simp only [List.map_cons, List.sum_cons]
    omega
  | case4 target loaded plan hun ih => exact absurd hq (Fits.not_nil_of_unfinished hun)

/-- Remainders that are not cut give the old targets back. -/
theorem retarget_uncut (plan : List (Nat × Nat)) :
    retarget plan ((remainders plan).map fun r => (r, r)) = plan.map (·.1) := by
  induction plan with
  | nil => rfl
  | cons h plan ih =>
    obtain ⟨target, loaded⟩ := h
    by_cases hfin : target ≤ loaded
    · simp [retarget, remainders_cons_of_finished, hfin, ih]
    · simp [retarget, remainders_cons_of_unfinished, hfin, ih]
      omega

/-! ### The scaled remainders (step 5 of R65) -/

/-- Each remainder beside its share of the room in whole hundreds of kg. -/
def scaled (room total : Nat) (rs : List Nat) : List (Nat × Nat) :=
  rs.map fun r => (r, r * room / (100 * total) * 100)

theorem scaled_map_fst (room total : Nat) (rs : List Nat) : (scaled room total rs).map (·.1) = rs := by
  simp [scaled, Function.comp_def]

/-- A share, multiplied by the total, is at most the remainder multiplied by the room. -/
theorem share_mul_le (room total r : Nat) : r * room / (100 * total) * 100 * total ≤ r * room := by
  rw [Nat.mul_assoc]
  exact Nat.div_mul_le_self ..

/-- The shares of any remainders, multiplied by the total, are at most their sum multiplied by the room. -/
theorem scaled_sum_mul_le (room total : Nat) (rs : List Nat) :
    ((scaled room total rs).map (·.2)).sum * total ≤ rs.sum * room := by
  induction rs with
  | nil => simp [scaled]
  | cons r rs ih =>
    have hr := share_mul_le room total r
    simp only [scaled, List.map_cons, List.sum_cons, Nat.add_mul] at ih ⊢
    exact Nat.add_le_add hr ih

/-- A room below the total cuts every remainder. -/
theorem scaled_le {room total : Nat} (h : room < total) (rs : List Nat) : ∀ x ∈ scaled room total rs, x.2 ≤ x.1 := by
  intro x hx
  obtain ⟨r, -, rfl⟩ := List.mem_map.1 hx
  refine Nat.le_of_mul_le_mul_right (Nat.le_trans (share_mul_le room total r) ?_) (Nat.zero_lt_of_lt h)
  exact Nat.mul_le_mul_left _ (Nat.le_of_lt h)

/-- The shares of the whole total fit the room. -/
theorem scaled_sum_le {room : Nat} {rs : List Nat} (h : room < rs.sum) :
    ((scaled room rs.sum rs).map (·.2)).sum ≤ room := by
  have := scaled_sum_mul_le room rs.sum rs
  rw [Nat.mul_comm rs.sum] at this
  exact Nat.le_of_mul_le_mul_right this (Nat.zero_lt_of_lt h)

/-! ### The rescale (R65) -/

theorem rescale_of_fits {ceiling : Nat} {plan : List (Nat × Nat)}
    (h : (remainders plan).sum ≤ ceiling - (plan.map (·.2)).sum) : rescale ceiling plan = plan.map (·.1) := if_pos h

/-- New remainders that fit the plan and, with the units still to hand, the room. -/
def FitsRoom (plan : List (Nat × Nat)) (room : Nat) (qs : List (Nat × Nat)) (units : Nat) : Prop :=
  Fits plan qs ∧ (qs.map (·.2)).sum + 100 * units ≤ room

theorem FitsRoom.pass {plan : List (Nat × Nat)} {room : Nat} (qs : List (Nat × Nat)) (units : Nat)
    (h : FitsRoom plan room qs units) :
    FitsRoom plan room (handOutPass qs units).1 (handOutPass qs units).2 := by
  obtain ⟨⟨hfst, hle⟩, hroom⟩ := h
  exact ⟨⟨(handOutPass_map_fst qs units).trans hfst, handOutPass_le units hle⟩,
    Nat.le_trans (Nat.le_of_eq (handOutPass_sum qs units)) hroom⟩

/-- The scaled remainders and the units of the shortfall fit the room. -/
theorem fitsRoom_scaled {plan : List (Nat × Nat)} {room : Nat} (h : room < (remainders plan).sum) :
    FitsRoom plan room (scaled room (remainders plan).sum (remainders plan))
      ((room - ((scaled room (remainders plan).sum (remainders plan)).map (·.2)).sum) / 100) := by
  refine ⟨⟨scaled_map_fst .., scaled_le h _⟩, ?_⟩
  have := scaled_sum_le h
  omega

/-- Every rescale puts remainders that fit the plan and the allowed remainder back into the plan. -/
theorem rescale_eq_retarget (ceiling : Nat) (plan : List (Nat × Nat)) :
    ∃ qs, Fits plan qs ∧ (qs.map (·.2)).sum ≤ ceiling - (plan.map (·.2)).sum ∧
      rescale ceiling plan = retarget plan qs := by
  by_cases h : (remainders plan).sum ≤ ceiling - (plan.map (·.2)).sum
  · refine ⟨(remainders plan).map fun r => (r, r), ⟨?_, ?_⟩, ?_, ?_⟩
    · simp [Function.comp_def]
    · simp
    · simpa [Function.comp_def] using h
    · rw [retarget_uncut, rescale_of_fits h]
  · obtain ⟨left, hfits, hroom⟩ := handOut_induction FitsRoom.pass _ _ _ (fitsRoom_scaled (Nat.not_le.1 h))
    exact ⟨_, hfits, Nat.le_trans (Nat.le_add_right ..) hroom, if_neg h⟩

/-- Settles O30: a rescale puts remainders that fit back into the plan (`rescale_eq_retarget`). -/
theorem aRescaleNeverRaisesATargetAndFitsTheCeiling : Obligations.ARescaleNeverRaisesATargetAndFitsTheCeiling := by
  intro ceiling plan
  dsimp only
  obtain ⟨qs, hfits, hroom, heq⟩ := rescale_eq_retarget ceiling plan
  have hlength : (rescale ceiling plan).length = plan.length := heq ▸ retarget_length plan qs
  have hlaw : ∀ y ∈ plan.zip (rescale ceiling plan), Retargeted y.1 y.2 := heq ▸ retarget_retargeted hfits
  refine ⟨hlength, fun k h x hk hx => ?_, rescale_of_fits, fun hL => ?_⟩
  · exact hlaw (h, x) (List.mem_of_getElem? (List.getElem?_zip_eq_some.2 ⟨hk, hx⟩))
  · have := retarget_sum_le hfits
    rw [← heq] at this
    omega

end Sys2Proof.Machine
end
